-- ==== Sys2Proof/Word.lean ====
section
/-! DEFINITION. The word type of the two ports and the sample type (R8 `W`, R10, R54, R84). -/

namespace Sys2Proof

/-- A port word, 32 bits (R8, R10). -/
abbrev Word := BitVec 32

/-- A byte, used only where a harness stores port words in a byte memory (R52). -/
abbrev Byte := BitVec 8

/-- A sample: its binary32 bit pattern (R54, R84). -/
abbrev Sample := BitVec 32

/-- A spectrum element: a pair of samples, real and imaginary part (R27, R54). -/
abbrev Cplx := Sample × Sample

end Sys2Proof
end

