-- ==== Sys2Proof/Syntax.lean ====
section
/-! DEFINITION. The command set: ports, the algorithm tag, opcodes and the seven commands (R24, R71, R76, R77, R80). -/

namespace Sys2Proof

/-- The two ports, and with them the two sequencers: `rp` stands for `RPSEQ`, `cp` for `CPSEQ` (R14, R17, R77). -/
inductive Port where
  | rp
  | cp
  deriving DecidableEq, Repr, Inhabited

/-- The values of the algorithm selector `ALG`, a two-constructor type (R24, R171). -/
inductive Alg where
  | frequencyDomain
  | timeDomain
  deriving DecidableEq, Repr

/-- The seven opcodes (R76). -/
inductive Opcode where
  | query
  | select
  | reset
  | flush
  | proc
  | build
  | buildk
  deriving DecidableEq, Repr

/-- The commands of spec/opcode_table.json, their operands as R80 assembles them.
The payload words are no operand: a command's own step takes them from its stream (R83, R166, R167). -/
inductive Instr where
  /-- `QUERY` (R162) -/
  | query
  /-- `SELECT a` (R163) -/
  | select (a : Alg)
  /-- `RESET c, u`: `direct` is unit mask bit 24, `ola` is bit 25 (R164, R80) -/
  | reset (direct ola : Bool) (c : Nat)
  /-- `FLUSH c` (R165) -/
  | flush (c : Nat)
  /-- `PROC m` (R166) -/
  | proc (m : Nat)
  /-- `BUILD N, B` (R168) -/
  | build (n b : Nat)
  /-- `BUILDK N, B, ORD` (R169) -/
  | buildk (n b ord : Nat)
  deriving DecidableEq, Repr

end Sys2Proof
end

