-- ==== Sys2Proof/Config.lean ====
section
/-! DEFINITION. What an implementation fixes (the OPEN parameters of R8) and the free values of the model.
A constant without a body has no value that a proof could use. -/

namespace Sys2Proof

/-- The largest channel count: `1 <= NCH <= 256` (R8). `NCH` itself is the field `nch` of State (log 1). -/
def Config.nchMax : Nat := 256

/-- DESIGN CHOICE (log 1): the channel count of the one state the interface calls the reset state.
Every statement about reset is made for every count. -/
def Config.resetNch : Nat := 1

/-- The forward half of `XFORM` (R107), OPEN: element `k` of the forward transform of size `2^ord` of a sequence.
Only that it depends on the input sequence and the size alone is said (log 2). -/
opaque Config.xformFwd : Nat → List Cplx → Nat → Cplx

/-- The inverse half of `XFORM` (R107), OPEN, the factor `1/K` included (R102; log 2). -/
opaque Config.xformInv : Nat → List Cplx → Nat → Cplx

/-- Free value (R108, U4; log 4): the sample a frequency-domain block on non-finite data yields.
Arguments: how many values were drawn before, the channel, the position in the block or past it. -/
opaque Config.freeSample : Nat → Nat → Nat → Sample

/-- Free value (R58, U10; log 5): which sequencer moves when both have a step and `sched` is empty.
Argument: how many values were drawn before. -/
opaque Config.arbiter : Nat → Port

end Sys2Proof
end

