-- ==== Sys2Proof/Machine/State.lean ====
section
/-! DEFINITION. The state of the machine (R20), its reset value (R35, R220), and the outcomes a step may name. -/

namespace Sys2Proof.Machine

/-- The mutable state of one Direct Convolver (R28): the circular delay line `DLY[c]` and the write cursor `CUR[c]`.
The sample type is a parameter, because R12 reads every sample rule in two instances. -/
structure Direct (α : Type) where
  dly : List α
  cur : Nat
  deriving DecidableEq, Repr

/-- The mutable state of one OLA Convolver (R29, R132): the overlap buffer `OVL[c]`. -/
structure Ola (α : Type) where
  ovl : List α
  deriving DecidableEq, Repr

/-- One channel of the bank: two sibling state machines that share no mutable data (R33, R160, R171). -/
structure Channel where
  direct : Direct Sample
  ola : Ola Sample
  deriving DecidableEq, Repr

/-- The set (R22): what a build creates whole. One `HMEM` and one `SPEC` per set, not per convolver (R22). -/
structure ConvSet where
  /-- `N`, the IR length (R21) -/
  n : Nat
  /-- `B`, the block-size bound (R21) -/
  b : Nat
  /-- `ORD`, the transform order; `K = 2^ORD` is no register (R21) -/
  ord : Nat
  /-- `HMEM[0..N)` (R26) -/
  hmem : List Sample
  /-- `SPEC[0..K)` (R27) -/
  spec : List Cplx
  /-- `DLY[c]`, `CUR[c]`, `OVL[c]` for each channel, channel 0 first (R28, R29) -/
  chans : List Channel
  deriving DecidableEq, Repr

/-- The opcode of the build in progress, `PEND.OP` (R30). -/
inductive BuildOp where
  | build
  | buildk
  deriving DecidableEq, Repr

/-- `PEND`, the build whose begin step has run and whose commit step has not (R30). -/
structure Pending where
  op : BuildOp
  n : Nat
  b : Nat
  ord : Nat
  h : List Sample
  deriving DecidableEq, Repr

/-- The state tuple of R20, then three fields of the model's own. -/
structure State where
  /-- `FAULT`: 0 for no fault, else the code of the first fatal condition met (R23) -/
  fault : BitVec 4
  /-- `ALG`, the algorithm selector (R24) -/
  alg : Alg
  /-- `CC[CP]`, the words taken from `CP_IN` so far (R25) -/
  ccCp : Nat
  /-- `CC[RP]`, the words taken from `RP_IN` so far (R25) -/
  ccRp : Nat
  /-- the set; it exists exactly when `IR_LOADED = 1` (R20, R22, R37; log 7) -/
  cset : Option ConvSet
  /-- `PEND`; it exists exactly when `REBUILDING = 1` (R20, R30, R37; log 7) -/
  pend : Option Pending
  /-- `CP_IN`, supplied and not yet taken, the next word first (R31) -/
  cpIn : List Word
  /-- `CP_OUT`, sent so far, the oldest word first (R31) -/
  cpOut : List Word
  /-- `RP_IN` (R31) -/
  rpIn : List Word
  /-- `RP_OUT` (R31) -/
  rpOut : List Word
  /-- the model's own: the channel count `NCH` (R8), which no step changes (log 1) -/
  nch : Nat
  /-- the model's own: the schedule, the next choices between the two sequencers (R34, R58; log 5) -/
  sched : List Port
  /-- the model's own: how many free values have been drawn (log 6) -/
  draws : Nat
  deriving DecidableEq, Repr

/-- The six fatal conditions (R191). -/
inductive FaultCode where
  | fEmptyIr
  | fSize
  | fZeroSpectrum
  | fBadLen
  | fIllegalCmd
  | fBadParam
  deriving DecidableEq, Repr

/-- The two recoverable conditions of the real-time path (R200, R201). -/
inductive SkipCode where
  | skipBusy
  | skipNoIr
  deriving DecidableEq, Repr

/-- Why there is NO STEP in a state. A fatal condition of the SCC is none of these: it is a next state with its code
in `FAULT` (R196). -/
inductive Fault where
  /-- `FAULT != 0`: neither sequencer has a step (R160, R196, U13). Raised by the step and by every command.
  Safe: the spec has no step there. -/
  | halted
  /-- A stream ends inside a command and no sequencer has a step: stuck (R160, R172, U14). Raised by the step, and by
  `PROC`, `BUILD`, `BUILDK` on a stream without their whole payload. Safe: the spec has no step there. -/
  | incompleteCommand
  /-- No fault, no build in progress, both input streams empty: the run is over (R172). Raised by the step.
  Safe: the spec has no step there. -/
  | runOver
  /-- A build's begin step is asked for while `REBUILDING = 1`: it waits for the commit (R160, R167). Raised by `BUILD`
  and `BUILDK` when run outside the step; the step commits first. Safe: the spec has no begin step there. -/
  | controlPortBusy
  deriving DecidableEq, Repr

/-- Why the model gives no meaning. -/
inductive Refusal where
  /-- An instruction without a meaning yet; no arm of this model raises it. Safe. -/
  | notModelled (mnemonic : String)
  deriving DecidableEq, Repr

/-- The state after a hardware reset of an SCC with `nch` channels (R220, R35). -/
def State.resetOf (nch : Nat) : State where
  fault := 0#4
  alg := .frequencyDomain
  ccCp := 0
  ccRp := 0
  cset := none
  pend := none
  cpIn := []
  cpOut := []
  rpIn := []
  rpOut := []
  nch := nch
  sched := []
  draws := 0

/-- The state after a hardware reset, for the channel count that log 1 names. -/
def State.reset : State := State.resetOf Config.resetNch

end Sys2Proof.Machine
end

