-- ==== Sys2Proof/Machine/Float.lean ====
section
/-! DEFINITION. The binary32 operations of `NUM` that the SCC does itself (R8, R84, R112, R135, R138, D20): IEEE 754
round to nearest even with gradual underflow, every operation rounded by itself (PRESUMED: K1 and K7 name the standard
and do not restate it; log 17). A finite value is held exactly, as a natural number of units of `2^-149`. -/

namespace Sys2Proof.Machine

/-- What a binary32 pattern stands for: `fin neg mag` is `± mag * 2^-149`. -/
inductive FloatVal where
  | nan
  | inf (neg : Bool)
  | fin (neg : Bool) (mag : Nat)
  deriving DecidableEq, Repr

/-- The biased exponent, bits 30:23 (R84). -/
def expBits (w : Sample) : Nat := w.toNat / 2 ^ 23 % 256

/-- The fraction, bits 22:0 (R84). -/
def fracBits (w : Sample) : Nat := w.toNat % 2 ^ 23

/-- The sign, bit 31 (R84). -/
def signBit (w : Sample) : Bool := decide (2 ^ 31 ≤ w.toNat)

/-- The value of a pattern (R84, K1): exponent 255 is infinite or NaN, exponent 0 is zero or subnormal. -/
def floatVal (w : Sample) : FloatVal :=
  if expBits w = 255 then (if fracBits w = 0 then .inf (signBit w) else .nan)
  else if expBits w = 0 then .fin (signBit w) (fracBits w)
  else .fin (signBit w) ((2 ^ 23 + fracBits w) * 2 ^ (expBits w - 1))

/-- `+0` (R11, R84). -/
def posZero : Sample := 0#32

/-- DESIGN CHOICE (log 3): the one pattern returned for every NaN result, as R108 permits. -/
def nanResult : Sample := 0x7FC00000#32

/-- A pattern from its sign and its other 31 bits. -/
def packSign (neg : Bool) (low : Nat) : Sample := BitVec.ofNat 32 (low + if neg then 2 ^ 31 else 0)

/-- An infinity. -/
def packInf (neg : Bool) : Sample := packSign neg (255 * 2 ^ 23)

/-- `n / 2^t` rounded to the nearest integer, ties to the even one. -/
def roundShift (n t : Nat) : Nat :=
  let q := n / 2 ^ t
  let r := n % 2 ^ t
  if 2 ^ t < 2 * r ∨ (2 * r = 2 ^ t ∧ q % 2 = 1) then q + 1 else q

/-- The binade of the value `n / 2^d` units: the result's last bit weighs `2^j` units, `j = 0` for the subnormals. -/
def roundBinade (n d : Nat) : Nat := Nat.log2 n - d - 23

/-- The binary32 pattern nearest to `± n / 2^d` units of `2^-149`, ties to even, overflow to infinity. -/
def roundPack (neg : Bool) (n d : Nat) : Sample :=
  let j := roundBinade n d
  let low := j * 2 ^ 23 + roundShift n (d + j)
  if 255 * 2 ^ 23 ≤ low then packInf neg else packSign neg low

/-- A finite value as a signed number of units. -/
def signedMag (neg : Bool) (mag : Nat) : Int := if neg then -(mag : Int) else mag

/-- The sum of two finite values; an exact zero is `-0` only when both are negative. -/
def addFin (n1 : Bool) (m1 : Nat) (n2 : Bool) (m2 : Nat) : Sample :=
  let v := signedMag n1 m1 + signedMag n2 m2
  if v = 0 then packSign (n1 && n2) 0 else roundPack (decide (v < 0)) v.natAbs 0

/-- binary32 addition, rounded once (R112, K7). -/
def f32Add (x y : Sample) : Sample :=
  match floatVal x, floatVal y with
  | .nan, _ => nanResult
  | _, .nan => nanResult
  | .inf a, .inf b => if a = b then packInf a else nanResult
  | .inf a, .fin _ _ => packInf a
  | .fin _ _, .inf b => packInf b
  | .fin n1 m1, .fin n2 m2 => addFin n1 m1 n2 m2

/-- The opposite sign, on any pattern. -/
def f32Neg (x : Sample) : Sample := x ^^^ 0x80000000#32

/-- binary32 subtraction, rounded once (R138, K7). -/
def f32Sub (x y : Sample) : Sample := f32Add x (f32Neg y)

/-- binary32 multiplication, rounded once (R112, K7). -/
def f32Mul (x y : Sample) : Sample :=
  match floatVal x, floatVal y with
  | .nan, _ => nanResult
  | _, .nan => nanResult
  | .inf a, .inf b => packInf (a != b)
  | .inf a, .fin b m => if m = 0 then nanResult else packInf (a != b)
  | .fin a m, .inf b => if m = 0 then nanResult else packInf (a != b)
  | .fin a m, .fin b k => roundPack (a != b) (m * k) 149

/-- Neither infinite nor NaN (R108). -/
def f32Finite (x : Sample) : Bool := expBits x != 255

/-- A NaN pattern (R108). -/
def f32IsNan (x : Sample) : Bool := expBits x == 255 && fracBits x != 0

/-- The sample compares equal to 0: `+0` or `-0` (R135, U7). -/
def f32IsZero (x : Sample) : Bool := x.toNat % 2 ^ 31 == 0

/-- Both parts of a spectrum element are finite. -/
def cplxFinite (z : Cplx) : Bool := f32Finite z.1 && f32Finite z.2

end Sys2Proof.Machine
end

