-- ==== Sys2Proof/Machine/Transform.lean ====
section
/-! DEFINITION. The arithmetic a sample rule is read over (R12), the transform pair as the OLA Convolver uses it
(R100 to R107), and the `NUM` instance the ports carry. -/

namespace Sys2Proof.Machine

/-- An instance of the sample rules (R12): the sample operations, and for each order a transform pair on sequences of
`2^ord` complex values, a complex value being a pair of samples. -/
structure Arith (α : Type) where
  zero : α
  add : α → α → α
  sub : α → α → α
  mul : α → α → α
  fwd : Nat → List (α × α) → List (α × α)
  inv : Nat → List (α × α) → List (α × α)

/-- The complex product `(a, b) * (c, d) = (a*c - b*d, a*d + b*c)`, each operation by itself (R138). -/
def complexMul {α : Type} (A : Arith α) (x y : α × α) : α × α :=
  (A.sub (A.mul x.1 y.1) (A.mul x.2 y.2), A.add (A.mul x.1 y.2) (A.mul x.2 y.1))

/-- A real block as `2^ord` complex values: each sample `s` as `(s, 0)`, zeros up to the size (R104, R134, R137). -/
def padBlock {α : Type} (A : Arith α) (ord : Nat) (x : List α) : List (α × α) :=
  x.map (fun s => (s, A.zero)) ++ List.replicate (2 ^ ord - x.length) (A.zero, A.zero)

/-- The forward transform of the zero-padded IR, the set's `SPEC` (R134). -/
def filterSpectrum {α : Type} (A : Arith α) (ord : Nat) (h : List α) : List (α × α) := A.fwd ord (padBlock A ord h)

/-- The energy of a spectrum, summed from element 0 on, `re^2` then `im^2` within an element (R106, R135). -/
def spectralEnergy {α : Type} (A : Arith α) (s : List (α × α)) : α :=
  s.foldl (fun acc z => A.add (A.add acc (A.mul z.1 z.1)) (A.mul z.2 z.2)) A.zero

/-- One half of the `NUM` transform pair from an element function: `2^ord` values out (R107), and at order 0 the
identity in both directions (R105; log 2). -/
def transformOf (f : Nat → List Cplx → Nat → Cplx) (ord : Nat) (a : List Cplx) : List Cplx :=
  if ord = 0 then a.take 1 else (List.range (2 ^ ord)).map (f ord a)

/-- The `NUM` instance over a given `XFORM` (R12, R107). -/
def numWith (fwd inv : Nat → List Cplx → Nat → Cplx) : Arith Sample where
  zero := posZero
  add := f32Add
  sub := f32Sub
  mul := f32Mul
  fwd := transformOf fwd
  inv := transformOf inv

/-- The `NUM` instance of the machine: binary32, with `XFORM` left open (R8, R107). -/
def num : Arith Sample := numWith Config.xformFwd Config.xformInv

end Sys2Proof.Machine
end

