-- ==== Sys2Proof/Machine/DirectUnit.lean ====
section
/-! DEFINITION. The unit operations of the Direct Convolver of one channel (R110 to R116), over any instance of R12. -/

namespace Sys2Proof.Machine

/-- The index of tap `k`: `(CUR[c] + N - k) mod N`, walked backward from the cursor with wraparound (R55). -/
def tapIndex (n cur k : Nat) : Nat := (cur + n - k) % n

/-- The construction state of a Direct Convolver, `construct(h)` without the shared `HMEM` (R111, R35). -/
def directConstruct {α : Type} (A : Arith α) (n : Nat) : Direct α := { dly := List.replicate n A.zero, cur := 0 }

/-- The dot product of `h` walked forward against the delay line walked backward, from `+0`, `k = 0` first (R112). -/
def directDot {α : Type} (A : Arith α) (h : List α) (n : Nat) (d : Direct α) : α :=
  (List.range n).foldl
    (fun acc k => A.add acc (A.mul (h.getD k A.zero) (d.dly.getD (tapIndex n d.cur k) A.zero))) A.zero

/-- `processSample(x)`: write at the cursor, dot product, advance the cursor modulo `N` (R112). -/
def directSample {α : Type} (A : Arith α) (h : List α) (n : Nat) (d : Direct α) (x : α) : α × Direct α :=
  let w : Direct α := { d with dly := d.dly.set d.cur x }
  (directDot A h n w, { w with cur := (w.cur + 1) % n })

/-- `processBlock(x[0..m))`: `processSample` on each element in order (R113). -/
def directBlock {α : Type} (A : Arith α) (h : List α) (n : Nat) (d : Direct α) : List α → List α × Direct α
  | [] => ([], d)
  | x :: xs =>
    let r := directSample A h n d x
    let rest := directBlock A h n r.2 xs
    (r.1 :: rest.1, rest.2)

/-- `reset()`: zero the delay line, cursor to 0 (R114). -/
def directReset {α : Type} (A : Arith α) (n : Nat) (_d : Direct α) : Direct α :=
  { dly := List.replicate n A.zero, cur := 0 }

end Sys2Proof.Machine
end

