-- ==== Sys2Proof/WellFormed.lean ====
section
/-! DEFINITION. When a command is well formed: every operand fits the field that carries it (R71, R72, R80).
An operand that fits its field and is illegal for execution (`N = 0`, `ORD = 15`) is well formed: it faults when executed. -/

namespace Sys2Proof

/-- Every operand of the command fits its field: `CH` 8 bits, `LEN` and `BSZ` 16 bits, `ORD` 5 bits (R71, R72). -/
def Instr.wf : Instr → Bool
  | .query => true
  | .select _ => true
  | .reset _ _ c => decide (c < 256)
  | .flush c => decide (c < 256)
  | .proc m => decide (m < 65536)
  | .build n b => decide (n < 65536) && decide (b < 65536)
  | .buildk n b ord => decide (n < 65536) && decide (b < 65536) && decide (ord < 32)

end Sys2Proof
end

