-- ==== Sys2Proof/Decode.lean ====
section
/-! DEFINITION. The decode procedure of R83, total on any words, and the encoder written from R71, R72 and R76. -/

namespace Sys2Proof

/-! Fields of the header word `W0` (R71) and of the build parameter word `W1` (R72). -/

/-- `W0[31:28]`, the opcode field `OP`. -/
def opField (w : Word) : Nat := w.toNat / 2 ^ 28

/-- `W0[27:24]`, the minor operand `A`. -/
def minorField (w : Word) : Nat := w.toNat / 2 ^ 24 % 16

/-- `W0[23:16]`, the channel index `CH`. -/
def chanField (w : Word) : Nat := w.toNat / 2 ^ 16 % 256

/-- `W0[15:0]`, the count `LEN`. -/
def lenField (w : Word) : Nat := w.toNat % 2 ^ 16

/-- `W1[31:21]`, reserved. -/
def w1Reserved (w : Word) : Nat := w.toNat / 2 ^ 21

/-- `W1[20:16]`, the explicit order `ORD`. -/
def ordField (w : Word) : Nat := w.toNat / 2 ^ 16 % 32

/-- `W1[15:0]`, the block-size bound `BSZ`. -/
def bszField (w : Word) : Nat := w.toNat % 2 ^ 16

/-- `W0[31:28]` as the four bits a response copies into `ROP` (R74). -/
def opBits (w : Word) : BitVec 4 := BitVec.ofNat 4 (opField w)

/-- The opcode number of a command (R76). -/
def Opcode.code : Opcode → Nat
  | .query => 1
  | .select => 2
  | .reset => 3
  | .flush => 4
  | .proc => 5
  | .build => 8
  | .buildk => 9

/-- The opcode map: `0x0`, `0x6`, `0x7`, `0xA` to `0xF` are undefined (R76). -/
def Opcode.ofNat? : Nat → Option Opcode
  | 1 => some .query
  | 2 => some .select
  | 3 => some .reset
  | 4 => some .flush
  | 5 => some .proc
  | 8 => some .build
  | 9 => some .buildk
  | _ => none

/-- The port on which an opcode is legal (R77). -/
def Opcode.port : Opcode → Port
  | .query => .rp
  | .select => .rp
  | .reset => .rp
  | .flush => .rp
  | .proc => .rp
  | .build => .cp
  | .buildk => .cp

/-- Every bit of `W0` that R71 calls reserved for the opcode is 0. -/
def Opcode.reservedClear (op : Opcode) (w : Word) : Bool :=
  match op with
  | .query => minorField w == 0 && chanField w == 0 && lenField w == 0
  | .select => minorField w / 2 == 0 && chanField w == 0 && lenField w == 0
  | .reset => minorField w / 4 == 0 && lenField w == 0
  | .flush => minorField w == 0 && lenField w == 0
  | .proc => minorField w == 0 && chanField w == 0
  | .build => minorField w == 0 && chanField w == 0
  | .buildk => minorField w == 0 && chanField w == 0

/-- Every bit of `W1` that R72 calls reserved for the opcode is 0 (the `ORD` field is reserved in `BUILD`). -/
def Opcode.w1Clear (op : Opcode) (w : Word) : Bool :=
  match op with
  | .build => w1Reserved w == 0 && ordField w == 0
  | .buildk => w1Reserved w == 0
  | _ => true

/-- `W0[24]` as the algorithm of `SELECT` (R24, R80). -/
def algOfBit (b : Nat) : Alg := if b % 2 = 0 then .frequencyDomain else .timeDomain

/-- The encoding of `ALG` in one bit (R24). -/
def Alg.bit : Alg → Nat
  | .frequencyDomain => 0
  | .timeDomain => 1

/-- Why a command is illegal as a word (R78 items 1 to 3; item 4 needs `NCH` and is tested by the command's step, log 18). -/
inductive Illegal where
  /-- `OP` is undefined -/
  | undefinedOpcode
  /-- `OP` is defined for the other port -/
  | wrongPort
  /-- a reserved bit of `W0` is 1 -/
  | reservedBit
  /-- a reserved bit of `W1` is 1 -/
  | reservedBitW1
  deriving DecidableEq, Repr

/-- What the decoder finds at the head of a stream. -/
inductive Decoded where
  /-- the stream ends before the header words do -/
  | incomplete
  /-- an illegal command: the reason, the bits for `ROP`, and how many words the decoder has taken -/
  | illegal (why : Illegal) (op : BitVec 4) (taken : Nat)
  /-- a command and how many header words it has -/
  | command (i : Instr) (taken : Nat)
  deriving DecidableEq, Repr

/-- A single-word real-time command, its reserved bits already seen to be 0 (R80). -/
def decodeRealTime (op : Opcode) (w0 : Word) : Instr :=
  match op with
  | .select => .select (algOfBit (minorField w0))
  | .reset => .reset (minorField w0 % 2 == 1) (minorField w0 / 2 % 2 == 1) (chanField w0)
  | .flush => .flush (chanField w0)
  | .proc => .proc (lenField w0)
  | _ => .query

/-- The second half of the decode of a build, once `W0` is legal (R83). -/
def decodeBuild (op : Opcode) (w0 : Word) (rest : List Word) : Decoded :=
  match rest with
  | [] => .incomplete
  | w1 :: _ =>
    if op.w1Clear w1 then
      .command (if op = .build then .build (lenField w0) (bszField w1)
        else .buildk (lenField w0) (bszField w1) (ordField w1)) 2
    else .illegal .reservedBitW1 (opBits w0) 2

/-- The decode procedure for port `p` on the words at the head of its stream (R83). -/
def decode (p : Port) (ws : List Word) : Decoded :=
  match ws with
  | [] => .incomplete
  | w0 :: rest =>
    match Opcode.ofNat? (opField w0) with
    | none => .illegal .undefinedOpcode (opBits w0) 1
    | some op =>
      if op.port = p then
        if op.reservedClear w0 then
          if p = .rp then .command (decodeRealTime op w0) 1 else decodeBuild op w0 rest
        else .illegal .reservedBit (opBits w0) 1
      else .illegal .wrongPort (opBits w0) 1

/-! The encoder. -/

/-- The opcode of a command. -/
def Instr.opcode : Instr → Opcode
  | .query => .query
  | .select _ => .select
  | .reset _ _ _ => .reset
  | .flush _ => .flush
  | .proc _ => .proc
  | .build _ _ => .build
  | .buildk _ _ _ => .buildk

/-- The port a command is sent on (R77). -/
def Instr.port (i : Instr) : Port := i.opcode.port

/-- A header word from its four fields `OP`, `A`, `CH`, `LEN` (R71). -/
def headerWord (op : Opcode) (a ch len : Nat) : Word :=
  BitVec.ofNat 32 (op.code * 2 ^ 28 + a * 2 ^ 24 + ch * 2 ^ 16 + len)

/-- A build parameter word from its fields `ORD`, `BSZ` (R72). -/
def paramWord (ord bsz : Nat) : Word := BitVec.ofNat 32 (ord * 2 ^ 16 + bsz)

/-- The header words of a command (R71, R72, R76). -/
def encode (i : Instr) : List Word :=
  match i with
  | .query => [headerWord .query 0 0 0]
  | .select a => [headerWord .select a.bit 0 0]
  | .reset d o c => [headerWord .reset (d.toNat + 2 * o.toNat) c 0]
  | .flush c => [headerWord .flush 0 c 0]
  | .proc m => [headerWord .proc 0 0 m]
  | .build n b => [headerWord .build 0 0 n, paramWord 0 b]
  | .buildk n b ord => [headerWord .buildk 0 0 n, paramWord ord b]

/-! The match and mask table of R76, beside the procedure of R83 that the machine runs. -/

/-- `match` and `mask` of `W0` (R76). -/
def Opcode.matchMask : Opcode → Word × Word
  | .query => (0x10000000#32, 0xFFFFFFFF#32)
  | .select => (0x20000000#32, 0xFEFFFFFF#32)
  | .reset => (0x30000000#32, 0xFC00FFFF#32)
  | .flush => (0x40000000#32, 0xFF00FFFF#32)
  | .proc => (0x50000000#32, 0xFFFF0000#32)
  | .build => (0x80000000#32, 0xFFFF0000#32)
  | .buildk => (0x90000000#32, 0xFFFF0000#32)

/-- The word `w` selects the command `op`: `w & mask = match` (R76). -/
def Opcode.selects (op : Opcode) (w : Word) : Bool := w &&& op.matchMask.2 == op.matchMask.1

/-! Port words in a byte memory, little-endian (R52; no rule of the machine can observe it). -/

/-- The word stored in four bytes, the lowest address first (R52). -/
def wordOfBytes (b0 b1 b2 b3 : Byte) : Word :=
  BitVec.ofNat 32 (b0.toNat + b1.toNat * 2 ^ 8 + b2.toNat * 2 ^ 16 + b3.toNat * 2 ^ 24)

/-- The words stored in a run of bytes; bytes past the last whole word are left over and dropped. -/
def wordsOfBytes : List Byte → List Word
  | b0 :: b1 :: b2 :: b3 :: rest => wordOfBytes b0 b1 b2 b3 :: wordsOfBytes rest
  | _ => []

/-- The first `k` bytes of a number, its least significant byte at the lowest address. -/
def bytesOfNat (k w : Nat) : List Byte := (List.range k).map fun i => BitVec.ofNat 8 (w / 2 ^ (8 * i))

/-- The header words that the number `w` of `nbits` bits stands for, every bit above `nbits` 0:
two words, the most a command's header has (R79). -/
def tableWords (nbits w : Nat) : List Word := wordsOfBytes (bytesOfNat 8 (w % 2 ^ nbits))

/-- The port a table word is for: bit 31 of the first word is 1 exactly for control-port commands (R76). -/
def tablePort (nbits w : Nat) : Port :=
  if w % 2 ^ nbits / 2 ^ 31 % 2 = 1 then .cp else .rp

/-- The command the decoder reads from an instruction whose bits are `w`. -/
def decodeTableWord (nbits w : Nat) : Option Instr :=
  match decode (tablePort nbits w) (tableWords nbits w) with
  | .command i _ => some i
  | _ => none

end Sys2Proof
end

