-- ==== Sys2Proof/Machine/Flags.lean ====
section
/-! DEFINITION. The device flags (R23), the status codes (R75, R191) and the response word (R74).
There are no condition codes: no sample operation sets a flag (R23). -/

namespace Sys2Proof.Machine

/-- `IR_LOADED`: a set exists (R23, R37; log 7). -/
def State.irLoaded (s : State) : Bool := s.cset.isSome

/-- `REBUILDING`: a build is in progress, the control path holds the lock (R23, R37, R60; log 7). -/
def State.rebuilding (s : State) : Bool := s.pend.isSome

/-- The level output `FAULT_OUT[3:0]`, which shows `FAULT` at all times (R196). -/
def State.faultOut (s : State) : BitVec 4 := s.fault

/-- The numbers of the fault codes, in `FAULT` and in `ST` (R75, R191). -/
def FaultCode.code : FaultCode → BitVec 4
  | .fEmptyIr => 8#4
  | .fSize => 9#4
  | .fZeroSpectrum => 10#4
  | .fBadLen => 11#4
  | .fIllegalCmd => 12#4
  | .fBadParam => 13#4

/-- The numbers of the skip codes (R75). -/
def SkipCode.code : SkipCode → BitVec 4
  | .skipBusy => 1#4
  | .skipNoIr => 2#4

/-- `OK` (R75). -/
def statusOk : BitVec 4 := 0#4

/-- The four opcode bits a response copies into `ROP` (R74, R76). -/
def opcodeBits (op : Opcode) : BitVec 4 := BitVec.ofNat 4 op.code

/-- The opcode of the build in progress (R30). -/
def BuildOp.opcode : BuildOp → Opcode
  | .build => .build
  | .buildk => .buildk

/-- The response word `ROP ++ ST ++ INFO ++ CNT` (R74). -/
def responseWord (rop st : BitVec 4) (info : BitVec 8) (cnt : BitVec 16) : Word := rop ++ st ++ info ++ cnt

/-- The flags byte of `QUERY`: bit 0 `IR_LOADED`, bit 1 `ALG`, bit 2 `REBUILDING` (R74, R162). -/
def queryInfo (s : State) : BitVec 8 :=
  BitVec.ofNat 8 (s.irLoaded.toNat + 2 * s.alg.bit + 4 * s.rebuilding.toNat)

end Sys2Proof.Machine
end

