-- ==== Sys2Proof/Machine/OlaUnit.lean ====
section
/-! DEFINITION. The unit operations of the OLA Convolver of one channel (R130 to R144), over any instance of R12, and
`processBlock` as the `NUM` instance runs it, with the free values of R108. -/

namespace Sys2Proof.Machine

/-- The construction state of an OLA Convolver: an overlap buffer of exactly `N - 1` zeros (R134, R35). -/
def olaConstruct {α : Type} (A : Arith α) (n : Nat) : Ola α := { ovl := List.replicate (n - 1) A.zero }

/-- Step 1: `X`, the transform of the zero-padded block (R137). -/
def olaForward {α : Type} (A : Arith α) (ord : Nat) (x : List α) : List (α × α) := A.fwd ord (padBlock A ord x)

/-- Step 2: `Y`, the pointwise product with the filter spectrum (R138). -/
def olaProduct {α : Type} (A : Arith α) (spec bigX : List (α × α)) : List (α × α) := List.zipWith (complexMul A) bigX spec

/-- Step 3: `z`, the real parts of the inverse transform (R139, R104). -/
def olaInverse {α : Type} (A : Arith α) (ord : Nat) (bigY : List (α × α)) : List α := (A.inv ord bigY).map Prod.fst

/-- `z` of a block (R137 to R139). -/
def olaConv {α : Type} (A : Arith α) (ord : Nat) (spec : List (α × α)) (x : List α) : List α :=
  olaInverse A ord (olaProduct A spec (olaForward A ord x))

/-- Step 4: the output, the head of `z` plus the carried-over overlap where there is one (R140). -/
def olaOutput {α : Type} (A : Arith α) (n m : Nat) (z ov : List α) : List α :=
  (List.range m).map fun i =>
    if i < n - 1 then A.add (z.getD i A.zero) (ov.getD i A.zero) else z.getD i A.zero

/-- Step 5: the new overlap, the unconsumed old one moved `m` places with the block's tail added (R141, R56). -/
def olaOverlap {α : Type} (A : Arith α) (n m : Nat) (z ov : List α) : List α :=
  (List.range (n - 1)).map fun t =>
    if t + m < n - 1 then A.add (ov.getD (t + m) A.zero) (z.getD (m + t) A.zero) else z.getD (m + t) A.zero

/-- `processBlock(x[0..m))`, the output block and the new overlap buffer (R142). The bank has tested `m` (R136). -/
def olaBlock {α : Type} (A : Arith α) (n ord : Nat) (spec : List (α × α)) (o : Ola α) (x : List α) : List α × Ola α :=
  let z := olaConv A ord spec x
  (olaOutput A n x.length z o.ovl, { ovl := olaOverlap A n x.length z o.ovl })

/-- `flush()`: the overlap buffer verbatim; nothing is cleared (R143). -/
def olaFlush {α : Type} (o : Ola α) : List α := o.ovl

/-- `reset()`: zero the overlap buffer (R144). -/
def olaReset {α : Type} (A : Arith α) (n : Nat) (_o : Ola α) : Ola α := { ovl := List.replicate (n - 1) A.zero }

/-- A `NUM` block is ordinary: no sample of the block, the old overlap, the IR or its spectrum is infinite or NaN and
nothing overflows on the way to the output and the new overlap (R108, U4; log 4). -/
def olaFinite (A : Arith Sample) (n ord : Nat) (hmem : List Sample) (spec : List Cplx) (o : Ola Sample)
    (x : List Sample) : Bool :=
  let bigX := olaForward A ord x
  let bigY := olaProduct A spec bigX
  let r := olaBlock A n ord spec o x
  x.all f32Finite && o.ovl.all f32Finite && hmem.all f32Finite && spec.all cplxFinite && bigX.all cplxFinite
    && bigY.all cplxFinite && (A.inv ord bigY).all cplxFinite && r.1.all f32Finite && r.2.ovl.all f32Finite

/-- `processBlock` in the `NUM` instance: on an ordinary block R142, else every output sample and every overlap
element is a free value (R108, U4). `free i` is the value at position `i` of the block, its tail past the block. -/
def olaBlockNum (A : Arith Sample) (free : Nat → Sample) (n ord : Nat) (hmem : List Sample) (spec : List Cplx)
    (o : Ola Sample) (x : List Sample) : List Sample × Ola Sample :=
  let r := olaBlock A n ord spec o x
  let ok := olaFinite A n ord hmem spec o x
  ((List.range x.length).map fun i => if ok then r.1.getD i posZero else free i,
   { ovl := (List.range (n - 1)).map fun t => if ok then r.2.ovl.getD t posZero else free (x.length + t) })

end Sys2Proof.Machine
end

