-- ==== Sys2Proof/Machine/Operands.lean ====
section
/-! DEFINITION. What is computed from a command's operands: lengths (R79), the derived order (R130, R131), the sizing
test (R133), the parameter test (R198) and the planar payload (R73). Every operation is on naturals (R18). -/

namespace Sys2Proof.Machine

/-- The lower clamp of the derived order (R8). -/
def orderMin : Nat := 6

/-- The upper clamp of the derived order, and the largest order there is (R8, R105). -/
def orderMax : Nat := 14

/-- The least `e` with `2^e >= n`, for `n >= 1` (R130). -/
def ceilLog2 (n : Nat) : Nat := if n ≤ 1 then 0 else Nat.log2 (n - 1) + 1

/-- `clamp(v, lo, hi)` (R13). -/
def clamp (v lo hi : Nat) : Nat := if v < lo then lo else if hi < v then hi else v

/-- `B + N - 1`, the points a build needs (R131). -/
def needOf (n b : Nat) : Nat := b + n - 1

/-- The derived order `clamp(ceil_log2(B + N - 1), 6, 14)` (R131). -/
def derivedOrder (n b : Nat) : Nat := clamp (ceilLog2 (needOf n b)) orderMin orderMax

/-- `ord_of`, the one place where the two builds differ (R167 to R169). -/
def orderFor (op : BuildOp) (n b ordOperand : Nat) : Nat :=
  match op with
  | .build => derivedOrder n b
  | .buildk => ordOperand

/-- `B = 0`, or an explicit order above 14 (R198). -/
abbrev badParam (op : BuildOp) (b ordOperand : Nat) : Prop := b = 0 ∨ (op = .buildk ∧ orderMax < ordOperand)

/-- `2^ord < B + N - 1`: the sizing invariant fails (R133, R193). -/
abbrev tooSmall (ord n b : Nat) : Prop := 2 ^ ord < needOf n b

/-- The payload words of a command in an SCC with `nch` channels (R70, R79). -/
def payloadWords (nch : Nat) : Instr → Nat
  | .query => 0
  | .select _ => 0
  | .reset _ _ _ => 0
  | .flush _ => 0
  | .proc m => nch * m
  | .build n _ => n
  | .buildk n _ _ => n

/-- The header words of a command (R70, R79). -/
def headerWords : Instr → Nat
  | .build _ _ => 2
  | .buildk _ _ _ => 2
  | _ => 1

/-- The length of a command in words (R79). -/
def commandWords (nch : Nat) (i : Instr) : Nat := headerWords i + payloadWords nch i

/-- Channel `c`'s block in a planar payload: words `c * m` to `c * m + m - 1` (R73, R166). -/
def channelBlock (m c : Nat) (payload : List Word) : List Sample := (payload.drop (c * m)).take m

/-- The stream holds at least `k` more words. -/
def hasAtLeast : Nat → List Word → Bool
  | 0, _ => true
  | _ + 1, [] => false
  | k + 1, _ :: ws => hasAtLeast k ws

end Sys2Proof.Machine
end

