-- ==== Sys2Proof/Machine/Ops.lean ====
section
/-! DEFINITION. The named operations over the state: streams (`recv`, `send`), responses, fault entry (R196), the skip
(R199), the try-lock (R161), the gate every command passes (R160), and the operations on the set.
There is no return from a fault (R203): only a hardware reset, which is `State.reset`, leaves the fault state. -/

namespace Sys2Proof.Machine

/-! The port streams (R13, R25, R31). -/

/-- The input stream of a port. -/
def State.inStream (s : State) : Port → List Word
  | .rp => s.rpIn
  | .cp => s.cpIn

/-- `recv` of the next `k` words of a port's input stream: they are removed and the command cursor advances (R25). -/
def State.recv (p : Port) (k : Nat) (s : State) : State :=
  match p with
  | .rp => { s with rpIn := s.rpIn.drop k, ccRp := s.ccRp + k }
  | .cp => { s with cpIn := s.cpIn.drop k, ccCp := s.ccCp + k }

/-- `send` of words on a port's output stream, in order (R13, R31). -/
def State.send (p : Port) (ws : List Word) (s : State) : State :=
  match p with
  | .rp => { s with rpOut := s.rpOut ++ ws }
  | .cp => { s with cpOut := s.cpOut ++ ws }

/-- A host supplies words on a port (R173); the machine itself never does (R63). -/
def State.supply (p : Port) (ws : List Word) (s : State) : State :=
  match p with
  | .rp => { s with rpIn := s.rpIn ++ ws }
  | .cp => { s with cpIn := s.cpIn ++ ws }

/-- A successful response with its payload (R74). -/
def State.answer (p : Port) (op : Opcode) (info : BitVec 8) (cnt : Nat) (payload : List Sample) (s : State) : State :=
  s.send p (responseWord (opcodeBits op) statusOk info (BitVec.ofNat 16 cnt) :: payload)

/-! Faults and skips. -/

/-- `raise Fault(code)` by a step of port `p` on a command with opcode bits `rop` (R196): latch the code, answer, and
nothing else. -/
def State.raiseFault (p : Port) (rop : BitVec 4) (f : FaultCode) (s : State) : State :=
  { s with fault := f.code }.send p [responseWord rop f.code 0#8 0#16]

/-- `skip(code)` of a real-time command with `payload` payload words (R199): discard them, answer, and nothing else. -/
def State.skip (op : Opcode) (payload : Nat) (k : SkipCode) (s : State) : State :=
  (s.recv .rp payload).send .rp [responseWord (opcodeBits op) k.code 0#8 0#16]

/-- The common head of the real-time commands that touch the set: lock first, then "IR loaded" (R161). -/
def State.trylock (op : Opcode) (payload : Nat) (s : State) (body : ConvSet → State) : State :=
  if s.rebuilding then s.skip op payload .skipBusy
  else
    match s.cset with
    | none => s.skip op payload .skipNoIr
    | some cs => body cs

/-! The gate: when a command has a step at all (R160, R202 order 0, U14). -/

/-- A real-time command, its header taken, with `payload` payload words still on `RP_IN`. -/
def realTimeCommand (payload : Nat) (s : State) (body : State → State) : Host.Outcome State Fault Refusal :=
  if s.fault = 0#4 then
    if hasAtLeast payload s.rpIn then .next (body s) else .fault .incompleteCommand
  else .fault .halted

/-- The begin step of a build, its header taken, with `payload` payload words still on `CP_IN`. -/
def controlCommand (payload : Nat) (s : State) (body : State → State) : Host.Outcome State Fault Refusal :=
  if s.fault = 0#4 then
    if s.rebuilding then .fault .controlPortBusy
    else if hasAtLeast payload s.cpIn then .next (body s) else .fault .incompleteCommand
  else .fault .halted

/-! The set (R22). -/

/-- Replace the set and nothing else. -/
def State.withSet (cs : ConvSet) (s : State) : State := { s with cset := some cs }

/-- One channel in its construction state: `direct.construct` and `ola.construct` (R111, R134, R35). -/
def channelConstruct (n : Nat) : Channel := { direct := directConstruct num n, ola := olaConstruct num n }

/-- The two unit resets of one channel under the unit mask (R164, R114, R144). -/
def Channel.reset (n : Nat) (direct ola : Bool) (ch : Channel) : Channel :=
  { direct := if direct then directReset num n ch.direct else ch.direct
    ola := if ola then olaReset num n ch.ola else ch.ola }

/-- Reset of channel `c` of the set; every other channel is untouched (R33, R164). -/
def ConvSet.resetChannel (direct ola : Bool) (c : Nat) (cs : ConvSet) : ConvSet :=
  { cs with chans := cs.chans.modify c (Channel.reset cs.n direct ola) }

/-- `OVL[c]` as `flush` returns it (R143, R165). -/
def ConvSet.flushChannel (c : Nat) (cs : ConvSet) : List Sample :=
  match cs.chans[c]? with
  | some ch => olaFlush ch.ola
  | none => []

/-- One block of one channel through the OLA Convolver; `draw` numbers the free values of R108. -/
def Channel.olaProc (cs : ConvSet) (draw c : Nat) (x : List Sample) (ch : Channel) : List Sample × Channel :=
  let r := olaBlockNum num (Config.freeSample draw c) cs.n cs.ord cs.hmem cs.spec ch.ola x
  (r.1, { ch with ola := r.2 })

/-- One block of one channel through the Direct Convolver. -/
def Channel.directProc (cs : ConvSet) (x : List Sample) (ch : Channel) : List Sample × Channel :=
  let r := directBlock num cs.hmem cs.n ch.direct x
  (r.1, { ch with direct := r.2 })

/-- One block of one channel through the convolver that `ALG` selects; the other one is untouched (R166, R33). -/
def Channel.proc (alg : Alg) (cs : ConvSet) (draw c : Nat) (x : List Sample) (ch : Channel) : List Sample × Channel :=
  match alg with
  | .frequencyDomain => ch.olaProc cs draw c x
  | .timeDomain => ch.directProc cs x

/-- One `PROC` on every channel, channel 0 first, each with its own block of the planar payload (R65, R73, R166). -/
def ConvSet.procAll (alg : Alg) (draw m : Nat) (payload : List Word) (cs : ConvSet) : List (List Sample × Channel) :=
  cs.chans.mapIdx fun c ch => ch.proc alg cs draw c (channelBlock m c payload)

/-- The set a build's commit installs: `IR` and spectrum from `PEND`, every channel in its construction state (R167). -/
def ConvSet.construct (nch : Nat) (pd : Pending) (spec : List Cplx) : ConvSet where
  n := pd.n
  b := pd.b
  ord := pd.ord
  hmem := pd.h
  spec := spec
  chans := List.replicate nch (channelConstruct pd.n)

/-! What stands at the head of a port's stream. -/

/-- The decode of the words at the head of a port's input stream (R83). -/
def State.fetch (p : Port) (s : State) : Decoded := decode p (s.inStream p)

/-- A whole command stands at the head of a port's input stream (R160). An illegal command is whole when the decoder has
its header words (R78; log 8). -/
def State.hasCommand (p : Port) (s : State) : Bool :=
  match s.fetch p with
  | .incomplete => false
  | .illegal _ _ _ => true
  | .command i k => hasAtLeast (payloadWords s.nch i) ((s.inStream p).drop k)

/-- The sequencer of the port has a step, `FAULT = 0` taken for granted (R160): `CPSEQ` can commit, or begin. -/
def State.canStep (p : Port) (s : State) : Bool :=
  match p with
  | .rp => s.hasCommand .rp
  | .cp => s.rebuilding || s.hasCommand .cp

/-- The sequencer that moves when both have a step: the head of the schedule, else a free value (R58; log 5). -/
def State.choose (s : State) : Port × State :=
  match s.sched with
  | p :: rest => (p, { s with sched := rest })
  | [] => (Config.arbiter s.draws, { s with draws := s.draws + 1 })

/-! Placing a command for the very next step (the fixed interface; log 11). -/

/-- `s` with the words of one command at the head of its port's stream, and nothing in the way of its step: no fault, the
schedule naming its sequencer, and for a build no other build in progress. -/
def State.placeCommand (p : Port) (ws : List Word) (s : State) : State :=
  match p with
  | .rp => { s with fault := 0#4, rpIn := ws ++ s.rpIn, sched := .rp :: s.sched }
  | .cp => { s with fault := 0#4, cpIn := ws ++ s.cpIn, sched := .cp :: s.sched, pend := none }

/-- The words of the command that the number `w` of `nbits` bits stands for: its header words and a payload of zeros. -/
def commandOfTable (nch nbits w : Nat) : List Word :=
  match decode (tablePort nbits w) (tableWords nbits w) with
  | .command i k => (tableWords nbits w).take k ++ List.replicate (payloadWords nch i) 0
  | .illegal _ _ k => (tableWords nbits w).take k
  | .incomplete => tableWords nbits w

end Sys2Proof.Machine
end

