-- ==== Sys2Proof/Machine/Control.lean ====
section
/-! DEFINITION. The two builds (R168, R169) over the one build procedure of R167: begin and commit. -/

namespace Sys2Proof.Machine

/-- The operands of a build pass every test of the begin step, in the order of R167 and R202: the first fault, if any. -/
def buildFault (op : BuildOp) (n b ordOperand : Nat) : Option FaultCode :=
  if n = 0 then some .fEmptyIr
  else if badParam op b ordOperand then some .fBadParam
  else if tooSmall (orderFor op n b ordOperand) n b then some .fSize
  else none

/-- The begin step of a build, its two header words taken (R167): a fault takes no payload word; else the payload is
taken into `PEND`, which sets `REBUILDING`. -/
def buildBegin (op : BuildOp) (n b ordOperand : Nat) (s : State) : State :=
  match buildFault op n b ordOperand with
  | some f => s.raiseFault .cp (opcodeBits op.opcode) f
  | none =>
    { s.recv .cp n with pend := some { op := op, n := n, b := b, ord := orderFor op n b ordOperand, h := s.cpIn.take n } }

/-- `BUILD N, B`, with the derived order (R168). -/
def execBuild (n b : Nat) (s : State) : Host.Outcome State Fault Refusal :=
  controlCommand n s (buildBegin .build n b 0)

/-- `BUILDK N, B, ORD`, with the explicit order (R169). -/
def execBuildk (n b ord : Nat) (s : State) : Host.Outcome State Fault Refusal :=
  controlCommand n s (buildBegin .buildk n b ord)

/-- The commit step of the build in progress (R167): the new spectrum, its energy test (R135, R194), the swap. -/
def buildCommit (pd : Pending) (s : State) : State :=
  let spec := filterSpectrum num pd.ord pd.h
  if f32IsZero (spectralEnergy num spec) then s.raiseFault .cp (opcodeBits pd.op.opcode) .fZeroSpectrum
  else
    { s.withSet (ConvSet.construct s.nch pd spec) with pend := none }.answer .cp pd.op.opcode
      (BitVec.ofNat 8 pd.ord) 0 []

end Sys2Proof.Machine
end

