-- ==== Sys2Proof/Machine/RealTime.lean ====
section
/-! DEFINITION. The five real-time commands (R162 to R166), one meaning each. A meaning starts where the decoder has
taken the header word; `PROC` takes its payload itself (R83, R166). -/

namespace Sys2Proof.Machine

/-- `QUERY`: answer the flags byte, change nothing (R162). -/
def execQuery (s : State) : Host.Outcome State Fault Refusal :=
  realTimeCommand 0 s fun s => s.answer .rp .query (queryInfo s) 0 []

/-- `SELECT a`: write `ALG` (R163). -/
def execSelect (a : Alg) (s : State) : Host.Outcome State Fault Refusal :=
  realTimeCommand 0 s fun s => { s with alg := a }.answer .rp .select 0#8 0 []

/-- The effect of `RESET c, u`: illegal channel, lock, "IR loaded", then the unit resets (R164, R78 item 4). -/
def resetEffect (direct ola : Bool) (c : Nat) (s : State) : State :=
  if s.nch ≤ c then s.raiseFault .rp (opcodeBits .reset) .fIllegalCmd
  else s.trylock .reset 0 fun cs => (s.withSet (cs.resetChannel direct ola c)).answer .rp .reset 0#8 0 []

/-- `RESET c, u` (R164). -/
def execReset (direct ola : Bool) (c : Nat) (s : State) : Host.Outcome State Fault Refusal :=
  realTimeCommand 0 s (resetEffect direct ola c)

/-- The effect of `FLUSH c`: illegal channel, lock, "IR loaded", then `N - 1` samples; nothing is cleared (R165). -/
def flushEffect (c : Nat) (s : State) : State :=
  if s.nch ≤ c then s.raiseFault .rp (opcodeBits .flush) .fIllegalCmd
  else s.trylock .flush 0 fun cs => s.answer .rp .flush 0#8 (cs.n - 1) (cs.flushChannel c)

/-- `FLUSH c` (R165). -/
def execFlush (c : Nat) (s : State) : Host.Outcome State Fault Refusal :=
  realTimeCommand 0 s (flushEffect c)

/-- The draws a block of the algorithm uses up: one number for a frequency-domain `PROC` (log 6). -/
def drawsOf : Alg → Nat
  | .frequencyDomain => 1
  | .timeDomain => 0

/-- A `PROC` that is neither skipped nor too long or empty: take the payload, run every channel, answer (R166). -/
def procBlock (m : Nat) (cs : ConvSet) (s : State) : State :=
  let r := cs.procAll s.alg s.draws m (s.rpIn.take (s.nch * m))
  let s1 := (s.recv .rp (s.nch * m)).withSet { cs with chans := r.map Prod.snd }
  { s1 with draws := s1.draws + drawsOf s.alg }.answer .rp .proc 0#8 m (r.map Prod.fst).flatten

/-- The effect of `PROC m`: lock, "IR loaded", block length, then the block (R166, R195, R202). -/
def procEffect (m : Nat) (s : State) : State :=
  s.trylock .proc (s.nch * m) fun cs =>
    if m = 0 ∨ cs.b < m then s.raiseFault .rp (opcodeBits .proc) .fBadLen else procBlock m cs s

/-- `PROC m` (R166). -/
def execProc (m : Nat) (s : State) : Host.Outcome State Fault Refusal :=
  realTimeCommand (s.nch * m) s (procEffect m)

end Sys2Proof.Machine
end

