-- ==== Sys2Proof/Machine/Dispatch.lean ====
section
/-! DEFINITION. The dispatch of a decoded command to its rule (R83): one arm per constructor of Instr. -/

namespace Sys2Proof.Machine

def exec (i : Instr) (s : State) : Host.Outcome State Fault Refusal :=
  match i with
  | .query => Sys2Proof.Machine.execQuery s
  | .select a => Sys2Proof.Machine.execSelect a s
  | .reset direct ola c => Sys2Proof.Machine.execReset direct ola c s
  | .flush c => Sys2Proof.Machine.execFlush c s
  | .proc m => Sys2Proof.Machine.execProc m s
  | .build n b => Sys2Proof.Machine.execBuild n b s
  | .buildk n b ord => Sys2Proof.Machine.execBuildk n b ord s

end Sys2Proof.Machine
end

