-- ==== Sys2Proof/Machine/Sequencer.lean ====
section
/-! DEFINITION. The two sequencers (R14, R58, R160): one atomic step of one of them. -/

namespace Sys2Proof.Machine

/-- A port's sequencer decodes the command at the head of its stream and runs it; an illegal command faults (R83, R197). -/
def runCommand (p : Port) (s : State) : Host.Outcome State Fault Refusal :=
  match s.fetch p with
  | .incomplete => .fault .incompleteCommand
  | .illegal _ rop k => .next ((s.recv p k).raiseFault p rop .fIllegalCmd)
  | .command i k => exec i (s.recv p k)

/-- One step of the sequencer of port `p`: `CPSEQ` commits the build in progress before it begins another (R160). -/
def agentStep (p : Port) (s : State) : Host.Outcome State Fault Refusal :=
  match p, s.pend with
  | .cp, some pd => .next (buildCommit pd s)
  | p, _ => runCommand p s

/-- One step of the SCC: the sequencer that can move moves; where both can, the schedule decides (R58, R160); where
neither can, there is no step (R172). -/
def machineStep (s : State) : Host.Outcome State Fault Refusal :=
  if s.fault = 0#4 then
    match s.canStep .rp, s.canStep .cp with
    | true, true => agentStep s.choose.1 s.choose.2
    | true, false => agentStep .rp s
    | false, true => agentStep .cp s
    | false, false => .fault (if s.rpIn.isEmpty && s.cpIn.isEmpty then .runOver else .incompleteCommand)
  else .fault .halted

end Sys2Proof.Machine
end

