-- ==== Sys2Proof/Machine/Step.lean ====
section
/-! DEFINITION. The step of the machine, and a command placed for the very next step. -/

namespace Sys2Proof.Machine

/-- One step (R14, R58, R160). -/
def step (s : State) : Host.Outcome State Fault Refusal := machineStep s

/-- `s` with the command whose bits are `w` standing where the next step takes its command from, its payload words zero
(log 11). -/
def State.withFetchWord (s : State) (nbits w : Nat) : State :=
  s.placeCommand (tablePort nbits w) (commandOfTable s.nch nbits w)

end Sys2Proof.Machine
end

