-- ==== Sys2Proof/Machine/Ideal.lean ====
section
/-! DEFINITION. The ideal instance of R12: real samples, exact arithmetic, the exact discrete Fourier transform pair of
R101. It defines what the SCC computes; the ports carry the `NUM` instance. Nothing here is run. Also the sequences that
the laws of R110, R145 and R146 speak of, over any instance. -/

namespace Sys2Proof.Machine

/-- A pair of reals as a complex number (R104). -/
noncomputable def toComplex (z : ℝ × ℝ) : ℂ := ⟨z.1, z.2⟩

/-- A complex number as a pair of reals (R13 `re`, `im`). -/
noncomputable def ofComplex (z : ℂ) : ℝ × ℝ := (z.re, z.im)

/-- Element `k` of the forward transform: `sum of a[n] * exp(-2*pi*i*k*n/K)`, unscaled (R101, R102). -/
noncomputable def idealFwdAt (ord : Nat) (a : List (ℝ × ℝ)) (k : Nat) : ℂ :=
  ∑ n ∈ Finset.range (2 ^ ord),
    toComplex (a.getD n (0, 0)) * Complex.exp (-(2 * Real.pi * Complex.I * k * n / (2 ^ ord : Nat)))

/-- Element `n` of the inverse transform: `(1/K) * sum of A[k] * exp(+2*pi*i*k*n/K)` (R101, R102). -/
noncomputable def idealInvAt (ord : Nat) (a : List (ℝ × ℝ)) (n : Nat) : ℂ :=
  (1 / (2 ^ ord : Nat)) * ∑ k ∈ Finset.range (2 ^ ord),
    toComplex (a.getD k (0, 0)) * Complex.exp (2 * Real.pi * Complex.I * k * n / (2 ^ ord : Nat))

/-- The ideal instance (R12, R101). -/
noncomputable def ideal : Arith ℝ where
  zero := 0
  add x y := x + y
  sub x y := x - y
  mul x y := x * y
  fwd ord a := (List.range (2 ^ ord)).map fun k => ofComplex (idealFwdAt ord a k)
  inv ord a := (List.range (2 ^ ord)).map fun n => ofComplex (idealInvAt ord a n)

/-- Sample `i` of the linear convolution: the sum over `j` with `0 <= i - j < N` of `x[j] * h[i - j]` (R110, R145). -/
noncomputable def linearConv (h x : List ℝ) (i : Nat) : ℝ :=
  ∑ j ∈ Finset.range x.length, if j ≤ i ∧ i - j < h.length then x.getD j 0 * h.getD (i - j) 0 else 0

/-- Sample `i` of the circular convolution of two sequences of `K` samples (R103). -/
noncomputable def circularConv (bigK : Nat) (a b : List ℝ) (i : Nat) : ℝ :=
  ∑ j ∈ Finset.range bigK, a.getD j 0 * b.getD ((i + bigK - j) % bigK) 0

/-- A stream of blocks through one OLA Convolver: the outputs one after another, and the state at the end (R145). -/
def olaRun {α : Type} (A : Arith α) (n ord : Nat) (spec : List (α × α)) (o : Ola α) : List (List α) → List α × Ola α
  | [] => ([], o)
  | x :: xs =>
    let r := olaBlock A n ord spec o x
    let rest := olaRun A n ord spec r.2 xs
    (r.1 ++ rest.1, rest.2)

/-- A stream of blocks through one Direct Convolver: the outputs one after another, and the state at the end (R113). -/
def directRun {α : Type} (A : Arith α) (h : List α) (n : Nat) (d : Direct α) : List (List α) → List α × Direct α
  | [] => ([], d)
  | x :: xs =>
    let r := directBlock A h n d x
    let rest := directRun A h n r.2 xs
    (r.1 ++ rest.1, rest.2)

/-- What the OLA Convolver yields for a stream of blocks plus a final `flush`, from the construction state (R146). -/
def olaTotal {α : Type} (A : Arith α) (ord : Nat) (h : List α) (blocks : List (List α)) : List α :=
  let r := olaRun A h.length ord (filterSpectrum A ord h) (olaConstruct A h.length) blocks
  r.1 ++ olaFlush r.2

/-- What the Direct Convolver yields for the same stream followed by `N - 1` zero samples (R146). -/
def directTotal {α : Type} (A : Arith α) (h : List α) (blocks : List (List α)) : List α :=
  (directBlock A h h.length (directConstruct A h.length)
    (blocks.flatten ++ List.replicate (h.length - 1) A.zero)).1

end Sys2Proof.Machine
end

