-- ==== Sys2Proof/Safety.lean ====
section
/-! DEFINITION. The terms claims use: the invariant of R32, the ends of a run (R172), the
named properties of `XFORM` (R107) and the tolerance (R8, R146). -/

namespace Sys2Proof.Machine

/-! The invariant of R32. -/

/-- A channel of a set with IR length `n` (R32 items 3 and 4). -/
structure Channel.Ok (n : Nat) (ch : Channel) : Prop where
  dly : ch.direct.dly.length = n
  cur : ch.direct.cur < n
  ovl : ch.ola.ovl.length = n - 1

/-- The operands of a set or of a build in progress (R32 item 1, R21). -/
structure OperandsOk (n b ord : Nat) : Prop where
  ir : 1 ≤ n
  bound : 1 ≤ b
  order : ord ≤ orderMax
  size : needOf n b ≤ 2 ^ ord

/-- A set of an SCC with `nch` channels (R32). -/
structure ConvSet.Ok (nch : Nat) (cs : ConvSet) : Prop where
  operands : OperandsOk cs.n cs.b cs.ord
  hmem : cs.hmem.length = cs.n
  specLength : cs.spec.length = 2 ^ cs.ord
  count : cs.chans.length = nch
  channels : ∀ ch ∈ cs.chans, ch.Ok cs.n
  spec : cs.spec = filterSpectrum num cs.ord cs.hmem
  energy : f32IsZero (spectralEnergy num cs.spec) = false

/-- A build in progress (R30). -/
structure Pending.Ok (pd : Pending) : Prop where
  operands : OperandsOk pd.n pd.b pd.ord
  payload : pd.h.length = pd.n

/-- The values `FAULT` can hold: 0 and the six fault codes (R23, R191). -/
def legalFault (f : BitVec 4) : Prop := f = 0#4 ∨ ∃ c : FaultCode, f = c.code

/-- The invariant of the state (R32), with the range of `NCH` (R8) and of `FAULT` (R23). -/
structure State.Inv (s : State) : Prop where
  nch : 1 ≤ s.nch ∧ s.nch ≤ Config.nchMax
  fault : legalFault s.fault
  cset : ∀ cs, s.cset = some cs → cs.Ok s.nch
  pend : ∀ pd, s.pend = some pd → pd.Ok

/-! The ends of a run (R172). -/

/-- A fault state: never the end of a run. -/
def State.faulted (s : State) : Prop := s.fault ≠ 0#4

/-- The run is over: no fault, no build in progress, both input streams empty. -/
def State.over (s : State) : Prop := s.fault = 0#4 ∧ s.pend = none ∧ s.rpIn = [] ∧ s.cpIn = []

/-- No whole command stands on the input stream of port `p`: its header words are not all there, or its payload words
are not (R160). -/
def State.lacksCommand (p : Port) (s : State) : Prop :=
  s.fetch p = .incomplete ∨
    ∃ (i : Instr) (k : Nat), s.fetch p = .command i k ∧ (s.inStream p).length < k + payloadWords s.nch i

/-- Stuck: no fault, no build in progress, neither stream holds a whole command, and one of them still holds words. -/
def State.stuck (s : State) : Prop :=
  s.fault = 0#4 ∧ s.pend = none ∧ (∀ p : Port, s.lacksCommand p) ∧ ¬ (s.rpIn = [] ∧ s.cpIn = [])

/-! Which sequencer moves, and what a port has for itself. -/

/-- The other port. -/
def otherPort : Port → Port
  | .rp => .cp
  | .cp => .rp

/-- The sequencer of port `p` is the one that moves in `s`, and `u` is `s` once that is settled: `u` is `s` itself where
only that sequencer has a step, else `s` with one choice of the schedule used up (R58; log 5). -/
def State.moves (p : Port) (s u : State) : Prop :=
  s.fault = 0#4 ∧ s.canStep p = true ∧
    ((s.canStep (otherPort p) = false ∧ u = s) ∨ (s.canStep (otherPort p) = true ∧ s.choose = (p, u)))

/-- The control port's cursor and streams are the same. -/
def State.sameCp (s t : State) : Prop := t.ccCp = s.ccCp ∧ t.cpIn = s.cpIn ∧ t.cpOut = s.cpOut

/-- The real-time port's cursor and streams are the same. -/
def State.sameRp (s t : State) : Prop := t.ccRp = s.ccRp ∧ t.rpIn = s.rpIn ∧ t.rpOut = s.rpOut

/-! `XFORM` and the tolerance. -/

/-- `TOL`, the example value of the source (R8, U2). -/
noncomputable def tol : ℝ := 1 / 10000

/-- The real number a finite sample stands for (R84). The others stand for no number and read as 0 here: where this is
used, finiteness is asked beside it. -/
noncomputable def sampleReal (x : Sample) : ℝ :=
  match floatVal x with
  | .fin neg mag => (signedMag neg mag : ℝ) / 2 ^ 149
  | _ => 0

/-- A finite sample in units of `2^-149`, the weight of the last bit of a subnormal (R84); 0 for the others, which the
statements exclude. -/
def sampleUnits (x : Sample) : Int :=
  match floatVal x with
  | .fin neg mag => signedMag neg mag
  | _ => 0

/-- The largest finite binary32 value, `(2^24 - 1) * 2^104` (R84). -/
noncomputable def maxFinite : ℝ := (2 ^ 24 - 1) * 2 ^ 104

/-- Both parts of a spectrum element compare equal to 0. -/
def cplxIsZero (z : Cplx) : Bool := f32IsZero z.1 && f32IsZero z.2

/-- `XFORM_ZERO` (R107): both directions of the all-`+0` sequence are all zero. -/
def XformZero (A : Arith Sample) : Prop :=
  ∀ ord ≤ orderMax, (A.fwd ord (List.replicate (2 ^ ord) (posZero, posZero))).all cplxIsZero = true ∧
    (A.inv ord (List.replicate (2 ^ ord) (posZero, posZero))).all cplxIsZero = true

/-- The model's own strengthening of `XFORM_ZERO` to zeros of either sign (log 16). -/
def XformKeepsZero (A : Arith Sample) : Prop :=
  ∀ ord ≤ orderMax, ∀ a : List Cplx, a.length = 2 ^ ord → a.all cplxIsZero = true →
    (A.fwd ord a).all cplxIsZero = true ∧ (A.inv ord a).all cplxIsZero = true

/-- A sequence of pairs of samples as pairs of reals. -/
noncomputable def realPairs (a : List Cplx) : List (ℝ × ℝ) := a.map fun z => (sampleReal z.1, sampleReal z.2)

/-- `XFORM_FINITE` (R107): finite input whose ideal transform stays below the largest finite value gives finite output. -/
def XformFinite (A : Arith Sample) : Prop :=
  ∀ ord ≤ orderMax, ∀ a : List Cplx, a.length = 2 ^ ord → a.all cplxFinite = true →
    ((∀ k < 2 ^ ord, ‖idealFwdAt ord (realPairs a) k‖ < maxFinite) → (A.fwd ord a).all cplxFinite = true) ∧
    ((∀ k < 2 ^ ord, ‖idealInvAt ord (realPairs a) k‖ < maxFinite) → (A.inv ord a).all cplxFinite = true)

/-- What the NUM frequency-domain path yields for a stream of blocks from the construction state: `processBlock` with the
free values of R108 on each block, numbered by block and position. -/
def olaRunNum (A : Arith Sample) (free : Nat → Nat → Sample) (n ord : Nat) (hmem : List Sample) (spec : List Cplx)
    (o : Ola Sample) (draw : Nat) : List (List Sample) → List Sample × Ola Sample
  | [] => ([], o)
  | x :: xs =>
    let r := olaBlockNum A (free draw) n ord hmem spec o x
    let rest := olaRunNum A free n ord hmem spec r.2 (draw + 1) xs
    (r.1 ++ rest.1, rest.2)

/-- The same with the final `flush` of R146. -/
def olaTotalNum (A : Arith Sample) (free : Nat → Nat → Sample) (ord : Nat) (h : List Sample)
    (blocks : List (List Sample)) : List Sample :=
  let r := olaRunNum A free h.length ord h (filterSpectrum A ord h) (olaConstruct A h.length) 0 blocks
  r.1 ++ olaFlush r.2

/-- Element `k` of the ideal transform of a zero-padded real sequence (R101, R104). -/
noncomputable def idealSpectrumAt (ord : Nat) (x : List ℝ) (k : Nat) : ℂ := idealFwdAt ord (padBlock ideal ord x) k

/-- The ideal results of a stream are in the range of binary32, the intermediate ones too (R108, R146; log 25): the filter
spectrum, the spectrum of each block, their product, and what the two paths yield for each initial part of the stream. -/
structure IdealInRange (ord : Nat) (h : List ℝ) (blocks : List (List ℝ)) : Prop where
  filter : ∀ k < 2 ^ ord, ‖idealSpectrumAt ord h k‖ < maxFinite
  block : ∀ x ∈ blocks, ∀ k < 2 ^ ord, ‖idealSpectrumAt ord x k‖ < maxFinite
  product : ∀ x ∈ blocks, ∀ k < 2 ^ ord, ‖idealSpectrumAt ord x k * idealSpectrumAt ord h k‖ < maxFinite
  results : ∀ j ≤ blocks.length, ∀ y ∈ directTotal ideal h (blocks.take j), |y| < maxFinite

/-- `XFORM_TOL` (R107, R146): for finite inputs whose ideal results are in range, and whose time-domain result is finite
(log 25), every sample of the frequency-domain result is finite and differs from the time-domain one by at most `t` times
the largest magnitude on the time-domain path (D20). This is asked for every choice of the free values, so no block of
the stream may be one whose values R108 leaves open. -/
def XformTol (A : Arith Sample) (t : ℝ) : Prop :=
  ∀ (ord b : Nat) (h : List Sample) (blocks : List (List Sample)) (free : Nat → Nat → Sample),
    OperandsOk h.length b ord → (∀ x ∈ blocks, 1 ≤ x.length ∧ x.length ≤ b) →
    h.all f32Finite = true → (∀ x ∈ blocks, x.all f32Finite = true) →
    IdealInRange ord (h.map sampleReal) (blocks.map (List.map sampleReal)) →
    (directTotal A h blocks).all f32Finite = true →
    (olaTotalNum A free ord h blocks).all f32Finite = true ∧
    ∀ i < (directTotal A h blocks).length, ∃ y ∈ directTotal A h blocks,
      |sampleReal ((olaTotalNum A free ord h blocks).getD i posZero) - sampleReal ((directTotal A h blocks).getD i posZero)|
        ≤ t * |sampleReal y|

end Sys2Proof.Machine
end

