-- ==== Sys2Proof/Certificates/Slice0/Obligations.lean ====
section
/-! DEFINITION. The statements for the provers. Each docstring names the rules of spec/ it rests on. Response words are
written as `responseWord ROP ST INFO CNT` with the numbers of R75 and R76; `0#32` is the sample `+0`. -/

open Sys2Proof Sys2Proof.Machine

/-! ## Encoding -/

/-- R71, R72, R76, R79, R80, R83: decoding the header words of a well-formed command, whatever follows them on the stream
of its port, gives the command back and takes exactly its header words. -/
def Obligations.DecodeInvertsEncode : Prop :=
  ∀ (i : Instr) (rest : List Word), i.wf = true →
    decode i.port (encode i ++ rest) = .command i (headerWords i)

/-- R76, R78, R83: what decodes as a command is well formed, belongs to that port, and the words taken are the only ones
that encode it. -/
def Obligations.EncodeInvertsDecode : Prop :=
  ∀ (p : Port) (ws : List Word) (i : Instr) (k : Nat), decode p ws = .command i k →
    i.wf = true ∧ i.port = p ∧ k = headerWords i ∧ ws.take k = encode i

/-- R71, R72, R76, R77, R78: for a port, `decode` calls a header word illegal on that word alone, that is by R78 items 1 to 3
as far as `W0` shows them, exactly when it matches no row of the match and mask table for that port; no word matches two rows;
and the two masks of `W1` are the reserved bits of the two builds. R78 item 4 (`CH >= NCH`), which R83 also tests in the decode,
is tested in the command's own step (log 18; ChannelOutOfRangeFaults). -/
def Obligations.MatchMaskTableDecides : Prop :=
  (∀ (p : Port) (w : Word) (rest : List Word),
    (∃ why rop, decode p (w :: rest) = .illegal why rop 1) ↔ ¬ ∃ op : Opcode, op.port = p ∧ op.selects w = true) ∧
  (∀ (w : Word) (op op' : Opcode), op.selects w = true → op'.selects w = true → op = op') ∧
  (∀ w : Word, (Opcode.build.w1Clear w = true ↔ w &&& 0xFFFF0000#32 = 0#32) ∧
    (Opcode.buildk.w1Clear w = true ↔ w &&& 0xFFE00000#32 = 0#32))

/-- R162 to R169: the example words of the seven commands decode to them. -/
def Obligations.ExampleWordsDecode : Prop :=
  decode .rp [0x10000000#32] = .command .query 1 ∧
  decode .rp [0x21000000#32] = .command (.select .timeDomain) 1 ∧
  decode .rp [0x33000000#32] = .command (.reset true true 0) 1 ∧
  decode .rp [0x40000000#32] = .command (.flush 0) 1 ∧
  decode .rp [0x50000004#32] = .command (.proc 4) 1 ∧
  decode .cp [0x80000004#32, 0x00000004#32] = .command (.build 4 4) 2 ∧
  decode .cp [0x90000004#32, 0x00030004#32] = .command (.buildk 4 4 3) 2

/-! ## The step -/

/-- R58, R83, R160: where a port's sequencer moves and no build is waiting to commit on it, and a command stands decoded
at the head of its stream, the step is that command run with its header words taken; `u` is the state once the choice
between the two sequencers is made (log 5). When a sequencer has a step is SequencerHasStepOnWholeCommand. -/
def Obligations.StepRunsDecodedCommand : Prop :=
  ∀ (p : Port) (s u : State) (i : Instr) (k : Nat), s.moves p u → (p = .cp → s.pend = none) →
    s.fetch p = .command i k → step s = exec i (u.recv p k)

/-- R160, R167: where the control sequencer moves and a build is in progress, the step is its commit. -/
def Obligations.StepCommitsBuildInProgress : Prop :=
  ∀ (s u : State) (pd : Pending), s.moves .cp u → s.pend = some pd → step s = .next (buildCommit pd u)

/-- R78, R83, R196, R197: an illegal command at the head of the real-time stream takes one word, latches 12, answers with
its own opcode bits, and does nothing else. The command is there once its first word is (log 8). -/
def Obligations.IllegalRealTimeCommandFaults : Prop :=
  ∀ (s u : State) (w : Word) (rest : List Word) (why : Illegal) (rop : BitVec 4) (k : Nat), s.moves .rp u →
    s.rpIn = w :: rest → s.fetch .rp = .illegal why rop k →
    step s = .next { u with
      fault := 12#4, rpIn := rest, ccRp := u.ccRp + 1,
      rpOut := u.rpOut ++ [responseWord (w.extractLsb' 28 4) 12#4 0#8 0#16] }

/-- R78, R83, R196, R197: an illegal command at the head of the control stream, with no build in progress, takes one word,
or two where the reserved bit is one of `W1`, latches 12, answers with its own opcode bits, and does nothing else (log 8). -/
def Obligations.IllegalControlCommandFaults : Prop :=
  ∀ (s u : State) (w : Word) (rest : List Word) (why : Illegal) (rop : BitVec 4) (k : Nat), s.moves .cp u →
    s.pend = none → s.cpIn = w :: rest → s.fetch .cp = .illegal why rop k →
    k = (if why = .reservedBitW1 then 2 else 1) ∧
    step s = .next { u with
      fault := 12#4, cpIn := (w :: rest).drop k, ccCp := u.ccCp + k,
      cpOut := u.cpOut ++ [responseWord (w.extractLsb' 28 4) 12#4 0#8 0#16] }

/-- R160, R196, R203: once `FAULT` is not 0 there is no step and no command runs; so nothing clears it
(what the model answers there is log 10). -/
def Obligations.HaltedMachineHasNoStep : Prop :=
  ∀ (s : State), s.fault ≠ 0#4 → step s = .fault .halted ∧ ∀ i : Instr, exec i s = .fault .halted

/-- R190, R196: a step that faults writes the code, takes at most the two header words of one port, sends one response on
that port with the code in `ST`, and leaves `ALG`, the set, `PEND` and the other port alone; the machine is then halted. -/
def Obligations.FaultEntryChangesNothingElse : Prop :=
  ∀ (s t : State), step s = .next t → t.fault ≠ 0#4 →
    t.alg = s.alg ∧ t.cset = s.cset ∧ t.pend = s.pend ∧ t.nch = s.nch ∧ step t = .fault .halted ∧
    ∃ (f : FaultCode) (rop : BitVec 4) (k : Nat), t.fault = f.code ∧ k ≤ 2 ∧
      ((t.rpIn = s.rpIn.drop k ∧ t.ccRp = s.ccRp + k ∧ t.rpOut = s.rpOut ++ [responseWord rop f.code 0#8 0#16] ∧
          s.sameCp t) ∨
       (t.cpIn = s.cpIn.drop k ∧ t.ccCp = s.ccCp + k ∧ t.cpOut = s.cpOut ++ [responseWord rop f.code 0#8 0#16] ∧
          s.sameRp t))

/-- R172, U13, U14: where there is no step, the machine is halted, or the run is over, or it is stuck inside a command: no
fault, no build in progress, words on a stream, and on each port the header words or the payload words are not all there.
The step says which of the three it is (log 10), it answers no other stop, and nothing is ever refused. -/
def Obligations.NoStepIsHaltedOverOrStuck : Prop :=
  ∀ s : State,
    (step s = .fault .halted ↔ s.fault ≠ 0#4) ∧
    (step s = .fault .runOver ↔ s.fault = 0#4 ∧ s.pend = none ∧ s.rpIn = [] ∧ s.cpIn = []) ∧
    (step s = .fault .incompleteCommand ↔ s.fault = 0#4 ∧ s.pend = none ∧ ¬ (s.rpIn = [] ∧ s.cpIn = []) ∧
      (s.fetch .rp = .incomplete ∨
        ∃ (i : Instr) (k : Nat), s.fetch .rp = .command i k ∧ s.rpIn.length < k + payloadWords s.nch i) ∧
      (s.fetch .cp = .incomplete ∨
        ∃ (i : Instr) (k : Nat), s.fetch .cp = .command i k ∧ s.cpIn.length < k + payloadWords s.nch i)) ∧
    step s ≠ .fault .controlPortBusy ∧ ∀ r : Refusal, step s ≠ .refused r

/-- R79, R160, R167, R232: when a sequencer has a step. The real-time one has a step exactly when a whole command stands on
`RP_IN`, its header words and all its payload words (or an illegal one, log 8); the control one when a build is in progress
or a whole command stands on `CP_IN`. The machine has a step exactly when `FAULT` is 0 and one of the two has. -/
def Obligations.SequencerHasStepOnWholeCommand : Prop :=
  (∀ s : State, s.canStep .rp = true ↔
    (∃ why rop k, s.fetch .rp = .illegal why rop k) ∨
      ∃ (i : Instr) (k : Nat), s.fetch .rp = .command i k ∧ k + payloadWords s.nch i ≤ s.rpIn.length) ∧
  (∀ s : State, s.canStep .cp = true ↔
    (∃ pd : Pending, s.pend = some pd) ∨ (∃ why rop k, s.fetch .cp = .illegal why rop k) ∨
      ∃ (i : Instr) (k : Nat), s.fetch .cp = .command i k ∧ k + payloadWords s.nch i ≤ s.cpIn.length) ∧
  (∀ s : State, (∃ t : State, step s = .next t) ↔ s.fault = 0#4 ∧ (s.canStep .rp = true ∨ s.canStep .cp = true)) ∧
  (∀ (nch c m n b ord : Nat) (a : Alg) (direct ola : Bool),
    payloadWords nch .query = 0 ∧ payloadWords nch (.select a) = 0 ∧ payloadWords nch (.reset direct ola c) = 0 ∧
    payloadWords nch (.flush c) = 0 ∧ payloadWords nch (.proc m) = nch * m ∧ payloadWords nch (.build n b) = n ∧
    payloadWords nch (.buildk n b ord) = n)

/-- R34, R58: where both sequencers have a step, the one that moves is the head of the schedule, which is used up, and where
the schedule is empty it is a free value, and a draw is counted; nothing else changes. The schedule and the draw are the
model's own (log 5, log 6). -/
def Obligations.ScheduleChoosesSequencer : Prop :=
  ∀ s : State, s.fault = 0#4 → s.canStep .rp = true → s.canStep .cp = true →
    (∀ (p : Port) (rest : List Port), s.sched = p :: rest → s.moves p { s with sched := rest }) ∧
    (s.sched = [] → s.moves (Config.arbiter s.draws) { s with draws := s.draws + 1 })

/-- R172: on the words supplied, and no more (log 22), every run reaches in finitely many steps a state that is a fault
state, or over, or stuck; there the step answers no next state (log 10). -/
def Obligations.EveryRunEnds : Prop :=
  ∀ s : State, ∃ (k : Nat) (t : State) (r : Fault), Host.Core.run Sys2Proof.core k s = .next t ∧
    (t.faulted ∨ t.over ∨ t.stuck) ∧ step t = .fault r

/-- R25, R31, R57: a step takes words only from the front of an input stream and the cursor counts them; it appends to the
output streams; it never changes the channel count. -/
def Obligations.StreamsMoveForward : Prop :=
  ∀ (s t : State), step s = .next t → t.nch = s.nch ∧
    (∃ (k : Nat) (ws : List Word), k ≤ s.rpIn.length ∧ t.rpIn = s.rpIn.drop k ∧ t.ccRp = s.ccRp + k ∧
      t.rpOut = s.rpOut ++ ws) ∧
    (∃ (k : Nat) (ws : List Word), k ≤ s.cpIn.length ∧ t.cpIn = s.cpIn.drop k ∧ t.ccCp = s.ccCp + k ∧
      t.cpOut = s.cpOut ++ ws)

/-! ## Real-time commands: what they do, and that they change nothing else -/

/-- R162: `QUERY` decodes from `0x10000000`, completes in every state without a fault, answers the three flags in word
bits 16, 17 and 18, and changes nothing. -/
def Obligations.QueryAnswersFlags : Prop :=
  (∀ rest : List Word, decode .rp (0x10000000#32 :: rest) = .command .query 1) ∧
  ∀ s : State, s.fault = 0#4 →
    exec .query s = .next { s with
      rpOut := s.rpOut ++ [BitVec.ofNat 32 (0x10000000 + (if s.cset.isSome then 2 ^ 16 else 0) +
        (if s.alg = .timeDomain then 2 ^ 17 else 0) + (if s.pend.isSome then 2 ^ 18 else 0))] }

/-- R163: `SELECT a` decodes from `0x20000000 | a << 24`, completes in every state without a fault (with no set, inside a
window), writes `ALG` and nothing else, and answers `OK`. -/
def Obligations.SelectWritesAlg : Prop :=
  (∀ rest : List Word, decode .rp (0x20000000#32 :: rest) = .command (.select .frequencyDomain) 1 ∧
    decode .rp (0x21000000#32 :: rest) = .command (.select .timeDomain) 1) ∧
  ∀ (a : Alg) (s : State), s.fault = 0#4 →
    exec (.select a) s = .next { s with alg := a, rpOut := s.rpOut ++ [0x20000000#32] }

/-- R164, R114, R144: `RESET` on a channel that exists, with a set and outside a window, zeroes the delay line and cursor
(mask bit 24) and the overlap (bit 25) of that channel and nothing else; the mask `00` resets nothing. -/
def Obligations.ResetZeroesChosenUnits : Prop :=
  ∀ (direct ola : Bool) (c : Nat) (s : State) (cs : ConvSet) (ch : Channel), s.fault = 0#4 → s.pend = none →
    s.cset = some cs → c < s.nch → cs.chans[c]? = some ch →
    exec (.reset direct ola c) s = .next { s with
      rpOut := s.rpOut ++ [0x30000000#32],
      cset := some { cs with
        chans := cs.chans.set c
          { direct := if direct then { dly := List.replicate cs.n 0#32, cur := 0 } else ch.direct,
            ola := if ola then { ovl := List.replicate (cs.n - 1) 0#32 } else ch.ola } } }

/-- R165, R143: `FLUSH` on a channel that exists, with a set and outside a window, answers `N - 1` and the overlap buffer
verbatim, whichever algorithm is selected, and changes nothing. -/
def Obligations.FlushReturnsOverlap : Prop :=
  ∀ (c : Nat) (s : State) (cs : ConvSet) (ch : Channel), s.fault = 0#4 → s.pend = none → s.cset = some cs → c < s.nch →
    cs.chans[c]? = some ch →
    exec (.flush c) s = .next { s with
      rpOut := s.rpOut ++ responseWord 4#4 0#4 0#8 (BitVec.ofNat 16 (cs.n - 1)) :: ch.ola.ovl }

/-- R166, R113: `PROC m` under `TimeDomain`: the payload is taken, channel `c` runs its Direct Convolver on payload words
`c * m` to `c * m + m - 1`, the outputs are answered channel 0 first, and nothing else changes (no overlap, no `ALG`). -/
def Obligations.ProcRunsDirectConvolvers : Prop :=
  ∀ (m : Nat) (s : State) (cs : ConvSet), s.fault = 0#4 → s.pend = none → s.cset = some cs → s.alg = .timeDomain →
    1 ≤ m → m ≤ cs.b → s.nch * m ≤ s.rpIn.length →
    exec (.proc m) s = .next { s with
      rpIn := s.rpIn.drop (s.nch * m),
      ccRp := s.ccRp + s.nch * m,
      rpOut := s.rpOut ++ responseWord 5#4 0#4 0#8 (BitVec.ofNat 16 m) ::
        (cs.chans.mapIdx fun c ch =>
          (directBlock num cs.hmem cs.n ch.direct (((s.rpIn.take (s.nch * m)).drop (c * m)).take m)).1).flatten,
      cset := some { cs with chans := cs.chans.mapIdx fun c ch =>
        { ch with direct :=
          (directBlock num cs.hmem cs.n ch.direct (((s.rpIn.take (s.nch * m)).drop (c * m)).take m)).2 } } }

/-- R166, R142, R108: `PROC m` under `FrequencyDomain`: the payload is taken, channel `c` runs its OLA Convolver on payload
words `c * m` to `c * m + m - 1`, the outputs are answered channel 0 first, and no delay line, cursor or `ALG` changes. The
values of a block on non-finite data are free (log 4), and one draw is counted (log 6). -/
def Obligations.ProcRunsOlaConvolvers : Prop :=
  ∀ (m : Nat) (s : State) (cs : ConvSet), s.fault = 0#4 → s.pend = none → s.cset = some cs → s.alg = .frequencyDomain →
    1 ≤ m → m ≤ cs.b → s.nch * m ≤ s.rpIn.length →
    exec (.proc m) s = .next { s with
      rpIn := s.rpIn.drop (s.nch * m),
      ccRp := s.ccRp + s.nch * m,
      draws := s.draws + 1,
      rpOut := s.rpOut ++ responseWord 5#4 0#4 0#8 (BitVec.ofNat 16 m) ::
        (cs.chans.mapIdx fun c ch => (olaBlockNum num (Config.freeSample s.draws c) cs.n cs.ord cs.hmem cs.spec ch.ola
          (((s.rpIn.take (s.nch * m)).drop (c * m)).take m)).1).flatten,
      cset := some { cs with chans := cs.chans.mapIdx fun c ch =>
        { ch with ola := (olaBlockNum num (Config.freeSample s.draws c) cs.n cs.ord cs.hmem cs.spec ch.ola
          (((s.rpIn.take (s.nch * m)).drop (c * m)).take m)).2 } } }

/-- R195: a `PROC` that is not skipped and has `m = 0` or `m > B` faults with 11 whichever algorithm is selected,
before any payload word is taken and any channel is processed; a `PROC` that is skipped is not tested. The payload stands
on the stream, as R160 asks of a step (log 9). -/
def Obligations.ProcBadLengthFaults : Prop :=
  (∀ (m : Nat) (s : State) (cs : ConvSet), s.fault = 0#4 → s.pend = none → s.cset = some cs → (m = 0 ∨ cs.b < m) →
    s.nch * m ≤ s.rpIn.length →
    exec (.proc m) s = .next { s with fault := 11#4, rpOut := s.rpOut ++ [responseWord 5#4 11#4 0#8 0#16] }) ∧
  (∀ (m : Nat) (s : State), s.fault = 0#4 → (s.pend ≠ none ∨ s.cset = none) → s.nch * m ≤ s.rpIn.length →
    ∃ t : State, exec (.proc m) s = .next t ∧ t.fault = 0#4)

/-- R78 item 4, R197, R202: `RESET` and `FLUSH` with `CH >= NCH` fault with 12, before the lock and "IR loaded" are
looked at; the model tests it in the command's own step (log 18). -/
def Obligations.ChannelOutOfRangeFaults : Prop :=
  ∀ (direct ola : Bool) (c : Nat) (s : State), s.fault = 0#4 → s.nch ≤ c →
    exec (.reset direct ola c) s = .next { s with
      fault := 12#4, rpOut := s.rpOut ++ [responseWord 3#4 12#4 0#8 0#16] } ∧
    exec (.flush c) s = .next { s with
      fault := 12#4, rpOut := s.rpOut ++ [responseWord 4#4 12#4 0#8 0#16] }

/-- R200: inside a window `RESET` and `FLUSH` of a channel that exists, and `PROC` of any length, are skipped with 1, also
when no set has been installed: the payload is discarded and nothing else changes. -/
def Obligations.WindowSkipsRealTimeCommands : Prop :=
  ∀ (s : State) (pd : Pending), s.fault = 0#4 → s.pend = some pd →
    (∀ (direct ola : Bool) (c : Nat), c < s.nch →
      exec (.reset direct ola c) s = .next { s with rpOut := s.rpOut ++ [responseWord 3#4 1#4 0#8 0#16] }) ∧
    (∀ c : Nat, c < s.nch →
      exec (.flush c) s = .next { s with rpOut := s.rpOut ++ [responseWord 4#4 1#4 0#8 0#16] }) ∧
    (∀ m : Nat, s.nch * m ≤ s.rpIn.length →
      exec (.proc m) s = .next { s with
        rpIn := s.rpIn.drop (s.nch * m), ccRp := s.ccRp + s.nch * m,
        rpOut := s.rpOut ++ [responseWord 5#4 1#4 0#8 0#16] })

/-- R199, R201: with no IR loaded and no build in progress `RESET` and `FLUSH` of a channel that exists, and `PROC` of any
length, are skipped with 2: the payload is discarded and nothing else changes. -/
def Obligations.NoIrSkipsRealTimeCommands : Prop :=
  ∀ s : State, s.fault = 0#4 → s.pend = none → s.cset = none →
    (∀ (direct ola : Bool) (c : Nat), c < s.nch →
      exec (.reset direct ola c) s = .next { s with rpOut := s.rpOut ++ [responseWord 3#4 2#4 0#8 0#16] }) ∧
    (∀ c : Nat, c < s.nch →
      exec (.flush c) s = .next { s with rpOut := s.rpOut ++ [responseWord 4#4 2#4 0#8 0#16] }) ∧
    (∀ m : Nat, s.nch * m ≤ s.rpIn.length →
      exec (.proc m) s = .next { s with
        rpIn := s.rpIn.drop (s.nch * m), ccRp := s.ccRp + s.nch * m,
        rpOut := s.rpOut ++ [responseWord 5#4 2#4 0#8 0#16] })

/-- R160, U14: `PROC` and the builds have no step while their payload is not all there; nothing is done in part
(log 9, log 10). -/
def Obligations.CommandWaitsForItsPayload : Prop :=
  ∀ s : State, s.fault = 0#4 →
    (∀ m : Nat, s.rpIn.length < s.nch * m → exec (.proc m) s = .fault .incompleteCommand) ∧
    (∀ n b : Nat, s.pend = none → s.cpIn.length < n → exec (.build n b) s = .fault .incompleteCommand) ∧
    (∀ n b ord : Nat, s.pend = none → s.cpIn.length < n → exec (.buildk n b ord) s = .fault .incompleteCommand)

/-- R74, R75: a real-time command that runs sends exactly one response: its own opcode, a status among 0, 1, 2, 11 and 12;
flags only for `QUERY`; no flags, no count and no payload where the status is not `OK`; no count and no payload for `QUERY`,
`SELECT` and `RESET`; and in a state that meets the invariant, as many payload words as the count says, for `PROC` in each
channel. -/
def Obligations.RealTimeCommandSendsOneResponse : Prop :=
  ∀ (i : Instr) (s t : State), i.port = .rp → exec i s = .next t →
    ∃ (st : BitVec 4) (info : BitVec 8) (cnt : BitVec 16) (pl : List Word),
      t.rpOut = s.rpOut ++ responseWord (BitVec.ofNat 4 i.opcode.code) st info cnt :: pl ∧
      st ∈ [0#4, 1#4, 2#4, 11#4, 12#4] ∧ (st ≠ 0#4 → info = 0#8 ∧ cnt = 0#16 ∧ pl = []) ∧
      (i.opcode ≠ .query → info = 0#8) ∧
      (i.opcode = .query ∨ i.opcode = .select ∨ i.opcode = .reset → cnt = 0#16 ∧ pl = []) ∧
      (s.Inv → (i.opcode = .proc → pl.length = s.nch * cnt.toNat) ∧ (i.opcode = .flush → pl.length = cnt.toNat))

/-- R74, R165, R166: in a state that meets the invariant, with a set and outside a window, the response of a `PROC` of a
legal length has `NCH * m` payload words, and that of a `FLUSH` of a channel that exists has `N - 1`. -/
def Obligations.ResponsesHaveTheirLength : Prop :=
  ∀ (s t : State) (cs : ConvSet), s.Inv → s.fault = 0#4 → s.pend = none → s.cset = some cs →
    (∀ m : Nat, 1 ≤ m → m ≤ cs.b → exec (.proc m) s = .next t →
      t.rpOut.length = s.rpOut.length + 1 + s.nch * m) ∧
    (∀ c : Nat, c < s.nch → exec (.flush c) s = .next t → t.rpOut.length = s.rpOut.length + 1 + (cs.n - 1))

/-! ## Builds -/

/-- R167, R168, R131: `BUILD` with `1 <= N`, `1 <= B`, `B + N - 1 <= 16384` and its payload present begins: the payload
goes into `PEND` with the least order from 6 to 14 that is large enough, and the old set, `ALG` and `RP` are as before. -/
def Obligations.BuildBegins : Prop :=
  ∀ (n b : Nat) (s : State), s.fault = 0#4 → s.pend = none → 1 ≤ n → 1 ≤ b → b + n - 1 ≤ 16384 →
    n ≤ s.cpIn.length →
    ∃ ord : Nat, 6 ≤ ord ∧ ord ≤ 14 ∧ b + n - 1 ≤ 2 ^ ord ∧ (ord = 6 ∨ 2 ^ (ord - 1) < b + n - 1) ∧
      exec (.build n b) s = .next { s with
        cpIn := s.cpIn.drop n, ccCp := s.ccCp + n,
        pend := some { op := .build, n := n, b := b, ord := ord, h := s.cpIn.take n } }

/-- R167, R169: `BUILDK` with `1 <= N`, `1 <= B`, `ORD <= 14`, `B + N - 1 <= 2^ORD` and its payload present begins with
exactly that order. -/
def Obligations.BuildkBegins : Prop :=
  ∀ (n b ord : Nat) (s : State), s.fault = 0#4 → s.pend = none → 1 ≤ n → 1 ≤ b → ord ≤ 14 → b + n - 1 ≤ 2 ^ ord →
    n ≤ s.cpIn.length →
    exec (.buildk n b ord) s = .next { s with
      cpIn := s.cpIn.drop n, ccCp := s.ccCp + n,
      pend := some { op := .buildk, n := n, b := b, ord := ord, h := s.cpIn.take n } }

/-- R167, R192, R193, R198, R202: the operands of a build that fault, and which fault comes first: `N = 0`, then `B = 0` or
an explicit order above 14, then the size. No payload word is taken and `REBUILDING` stays 0. The payload stands on the stream,
as R160 asks of a step (log 9). -/
def Obligations.BuildFaultsInOrder : Prop :=
  ∀ (n b ord : Nat) (s : State) (f : BitVec 4), s.fault = 0#4 → s.pend = none → n ≤ s.cpIn.length →
    ((if n = 0 then some 8#4 else if b = 0 then some 13#4 else if 16384 < b + n - 1 then some 9#4 else none) = some f →
      exec (.build n b) s = .next { s with fault := f, cpOut := s.cpOut ++ [responseWord 8#4 f 0#8 0#16] }) ∧
    ((if n = 0 then some 8#4 else if b = 0 ∨ 14 < ord then some 13#4 else if 2 ^ ord < b + n - 1 then some 9#4
        else none) = some f →
      exec (.buildk n b ord) s = .next { s with fault := f, cpOut := s.cpOut ++ [responseWord 9#4 f 0#8 0#16] })

/-- R160, R167: a second build waits while one is in progress: its begin step does not exist (log 10). -/
def Obligations.SecondBuildWaits : Prop :=
  ∀ (s : State) (pd : Pending), s.fault = 0#4 → s.pend = some pd →
    (∀ n b : Nat, exec (.build n b) s = .fault .controlPortBusy) ∧
    (∀ n b ord : Nat, exec (.buildk n b ord) s = .fault .controlPortBusy)

/-- R167, R134, R135, R194: the commit step. With `S` the transform of the IR zero-padded to `2^ORD`: if its energy is 0
the build faults with 10 and everything else stays (`REBUILDING` too); else the whole set is replaced, every channel in
the construction state, `IR_LOADED` is 1, `REBUILDING` 0, and the order is answered. `ALG` and `RP` are as before. -/
def Obligations.CommitReplacesWholeSet : Prop :=
  ∀ (pd : Pending) (s : State) (rop : BitVec 4), rop = (if pd.op = .build then 8#4 else 9#4) →
    ∀ spec : List Cplx,
      spec = num.fwd pd.ord (pd.h.map (fun x => (x, 0#32)) ++ List.replicate (2 ^ pd.ord - pd.h.length) (0#32, 0#32)) →
      (f32IsZero (spectralEnergy num spec) = true →
        buildCommit pd s = { s with fault := 10#4, cpOut := s.cpOut ++ [responseWord rop 10#4 0#8 0#16] }) ∧
      (f32IsZero (spectralEnergy num spec) = false →
        buildCommit pd s = { s with
          pend := none,
          cpOut := s.cpOut ++ [responseWord rop 0#4 (BitVec.ofNat 8 pd.ord) 0#16],
          cset := some {
            n := pd.n, b := pd.b, ord := pd.ord, hmem := pd.h, spec := spec,
            chans := List.replicate s.nch
              { direct := { dly := List.replicate pd.n 0#32, cur := 0 },
                ola := { ovl := List.replicate (pd.n - 1) 0#32 } } } })

/-! ## Reset and invariants -/

/-- R35, R172, R220: the state after a hardware reset, for every channel count: no fault, no set, no build in progress,
`FrequencyDomain`, both cursors 0, all four streams empty; both sequencers are idle, which the step answers
as a run that is over (R172; log 10). -/
def Obligations.HardwareResetState : Prop :=
  ∀ nch : Nat, (State.resetOf nch).fault = 0#4 ∧ (State.resetOf nch).irLoaded = false ∧
    (State.resetOf nch).rebuilding = false ∧ (State.resetOf nch).alg = .frequencyDomain ∧
    (State.resetOf nch).ccCp = 0 ∧ (State.resetOf nch).ccRp = 0 ∧ (State.resetOf nch).cpIn = [] ∧
    (State.resetOf nch).cpOut = [] ∧ (State.resetOf nch).rpIn = [] ∧ (State.resetOf nch).rpOut = [] ∧
    (State.resetOf nch).cset = none ∧ (State.resetOf nch).pend = none ∧
    step (State.resetOf nch) = .fault .runOver

/-- R32, R8: the state after a hardware reset meets the invariant, for every legal channel count, and the interface's
reset state is one of them (which one is the model's choice, log 1). -/
def Obligations.ResetMeetsInvariant : Prop :=
  (∀ nch : Nat, 1 ≤ nch → nch ≤ 256 → (State.resetOf nch).Inv) ∧ State.reset.Inv

/-- R32, the source's "Invariant preservation": from every state that meets the invariant, a step gives one that does:
`K >= B + N - 1`, every array at its length, every cursor below `N`, `SPEC` the transform of the padded IR with energy
that is not 0, a legal fault code. -/
def Obligations.StepKeepsInvariant : Prop :=
  ∀ (s t : State), s.Inv → step s = .next t → t.Inv

/-- R24: only a `SELECT` command changes `ALG`. -/
def Obligations.OnlySelectWritesAlg : Prop :=
  ∀ (s t : State), step s = .next t → t.alg ≠ s.alg → s.fetch .rp = .command (.select t.alg) 1

/-- R21, R22, R26, R27: outside a window a step leaves `N`, `B`, `ORD`, `HMEM` and `SPEC` as they are, and makes no set
where there is none: only a commit writes them. -/
def Obligations.OnlyCommitReplacesIr : Prop :=
  ∀ (s t : State), step s = .next t → s.pend = none →
    (s.cset = none → t.cset = none) ∧
    (∀ cs : ConvSet, s.cset = some cs → ∃ chans : List Channel, t.cset = some { cs with chans := chans })

/-- R30, R59 item 2: inside a window no real-time command writes the set or `PEND`, and none reads them: on any other set
(or none, where there is none, for `QUERY` answers `IR_LOADED`) and any other build in progress it does the same. -/
def Obligations.WindowHidesTheSet : Prop :=
  ∀ (i : Instr) (s t : State) (pd pd' : Pending) (cset' : Option ConvSet), i.port = .rp → s.pend = some pd →
    cset'.isSome = s.cset.isSome → exec i s = .next t →
    t.cset = s.cset ∧ t.pend = s.pend ∧
    exec i { s with cset := cset', pend := some pd' } = .next { t with cset := cset', pend := some pd' }

/-- R33, R196, R206: a real-time command changes nothing of the control port and never `PEND`; a build's begin step
changes nothing of the real-time port, not `ALG` and not the set. -/
def Obligations.PortsKeepApart : Prop :=
  ∀ (i : Instr) (s t : State), exec i s = .next t →
    (i.port = .rp → s.sameCp t ∧ t.pend = s.pend) ∧
    (i.port = .cp → s.sameRp t ∧ t.alg = s.alg ∧ t.cset = s.cset)

/-- R33, R166, R170: a `PROC` leaves the convolver that is not selected as it is, in every channel. -/
def Obligations.UnselectedConvolverUntouched : Prop :=
  ∀ (m : Nat) (s t : State) (cs : ConvSet), exec (.proc m) s = .next t → s.cset = some cs →
    ∃ cs' : ConvSet, t.cset = some cs' ∧
      (s.alg = .timeDomain → cs'.chans.map Channel.ola = cs.chans.map Channel.ola) ∧
      (s.alg = .frequencyDomain → cs'.chans.map Channel.direct = cs.chans.map Channel.direct)

/-- R33, R209: what a `PROC` leaves in channel `c` depends on that channel's own state and block, the set's registers and
`ALG` alone: two machines, neither in a window, that agree on these, whatever their other channels hold, agree on channel `c`
afterwards. They must also have drawn equally often, because the values of a block on non-finite data are free values numbered
by the model's own count (log 4, log 6). -/
def Obligations.ChannelsAreIndependent : Prop :=
  ∀ (m c : Nat) (s s' t t' : State) (cs cs' : ConvSet), exec (.proc m) s = .next t → exec (.proc m) s' = .next t' →
    s.pend = none → s'.pend = none → s.cset = some cs → s'.cset = some cs' →
    cs.n = cs'.n → cs.b = cs'.b → cs.ord = cs'.ord → cs.hmem = cs'.hmem → cs.spec = cs'.spec →
    s.alg = s'.alg → s.draws = s'.draws →
    channelBlock m c (s.rpIn.take (s.nch * m)) = channelBlock m c (s'.rpIn.take (s'.nch * m)) →
    cs.chans[c]? = cs'.chans[c]? →
    ∃ d d' : ConvSet, t.cset = some d ∧ t'.cset = some d' ∧ d.chans[c]? = d'.chans[c]?

/-! ## Order derivation -/

/-- R130: `ceil_log2(n)` is the least natural `e` with `2^e >= n`. -/
def Obligations.CeilLogIsLeast : Prop :=
  ∀ n : Nat, 1 ≤ n → n ≤ 2 ^ ceilLog2 n ∧ ∀ e : Nat, n ≤ 2 ^ e → ceilLog2 n ≤ e

/-! ## The Direct Convolver -/

/-- R113: splitting a stream into blocks in any way gives the same outputs and the same end state, in every instance. -/
def Obligations.DirectBlocksSplit : Prop :=
  ∀ (α : Type) (A : Arith α) (h : List α) (n : Nat) (d : Direct α) (x y : List α),
    directBlock A h n d (x ++ y) =
      ((directBlock A h n d x).1 ++ (directBlock A h n (directBlock A h n d x).2 y).1,
       (directBlock A h n (directBlock A h n d x).2 y).2)

/-- R116: after the samples `x` since construction or `reset`, the cursor is their count modulo `N`, the latest
`min(count, N)` samples stand at their indexes modulo `N`, and the slots not yet written hold `+0`. -/
def Obligations.DelayLineHoldsLatestSamples : Prop :=
  ∀ (α : Type) (A : Arith α) (h : List α) (n : Nat) (x : List α) (d d0 : Direct α), 1 ≤ n →
    (d0 = directConstruct A n ∨ ∃ old : Direct α, d0 = directReset A n old) → d = (directBlock A h n d0 x).2 →
    d.cur = x.length % n ∧
    (∀ j : Nat, j < min x.length n → d.dly[(x.length - 1 - j) % n]? = x[x.length - 1 - j]?) ∧
    (∀ i : Nat, x.length ≤ i → i < n → d.dly[i]? = some A.zero)

/-- R110, in the ideal instance: output sample `i` of the Direct Convolver, counted across all calls since construction or
its last `reset`, is the sum of `h[k] * x[i - k]`, with `x` 0 before the first sample. -/
def Obligations.DirectComputesConvolution : Prop :=
  ∀ (h : List ℝ) (blocks : List (List ℝ)) (d : Direct ℝ) (i : Nat), 1 ≤ h.length → i < blocks.flatten.length →
    (d = directConstruct ideal h.length ∨ ∃ old : Direct ℝ, d = directReset ideal h.length old) →
    (directRun ideal h h.length d blocks).1.getD i 0 =
      ∑ k ∈ Finset.range h.length, if k ≤ i then h.getD k 0 * blocks.flatten.getD (i - k) 0 else 0

/-- R118, impulse identity in the `NUM` instance: a unit impulse followed by zeros gives a finite IR back bit for bit,
up to the sign of zero (binary32 as log 17 has it). -/
def Obligations.DirectImpulseIdentity : Prop :=
  ∀ h : List Sample, 1 ≤ h.length → h.all f32Finite = true →
    (directBlock num h h.length (directConstruct num h.length) (0x3F800000#32 :: List.replicate (h.length - 1) 0#32)).1 =
      h.map fun w => if f32IsZero w then 0#32 else w

/-- R118, idempotent silence in the `NUM` instance: after construction or `reset`, a block of zeros gives zeros bit for
bit and leaves the delay line all zero (log 17). -/
def Obligations.DirectSilence : Prop :=
  ∀ (h : List Sample) (m : Nat) (d : Direct Sample), 1 ≤ h.length → h.all f32Finite = true →
    (directBlock num h h.length (directReset num h.length d) (List.replicate m 0#32)).1 = List.replicate m 0#32 ∧
    (directBlock num h h.length (directReset num h.length d) (List.replicate m 0#32)).2.dly =
      List.replicate h.length 0#32

/-! ## binary32 -/

/-- R112, K7: a finite sum or product is a nearest representable value to the exact one, and of two equally near ones the
one with an even last bit; values are counted in units of `2^-149` (the standard is general knowledge, log 17). -/
def Obligations.RoundingIsToNearestEven : Prop :=
  ∀ x y w : Sample, f32Finite x = true → f32Finite y = true → f32Finite w = true →
    (f32Finite (f32Add x y) = true →
      |sampleUnits (f32Add x y) - (sampleUnits x + sampleUnits y)| ≤ |sampleUnits w - (sampleUnits x + sampleUnits y)| ∧
      (|sampleUnits (f32Add x y) - (sampleUnits x + sampleUnits y)| = |sampleUnits w - (sampleUnits x + sampleUnits y)| →
        sampleUnits w ≠ sampleUnits (f32Add x y) → (f32Add x y).toNat % 2 = 0)) ∧
    (f32Finite (f32Mul x y) = true →
      |sampleUnits (f32Mul x y) * 2 ^ 149 - sampleUnits x * sampleUnits y| ≤
        |sampleUnits w * 2 ^ 149 - sampleUnits x * sampleUnits y| ∧
      (|sampleUnits (f32Mul x y) * 2 ^ 149 - sampleUnits x * sampleUnits y| =
          |sampleUnits w * 2 ^ 149 - sampleUnits x * sampleUnits y| →
        sampleUnits w ≠ sampleUnits (f32Mul x y) → (f32Mul x y).toNat % 2 = 0))

/-- R108, U5: a NaN operand gives a NaN, and so do `0 * inf` and `inf - inf`; which NaN is not said (log 3, log 17). -/
def Obligations.NanPropagates : Prop :=
  (∀ x y : Sample, f32IsNan x = true ∨ f32IsNan y = true →
    f32IsNan (f32Add x y) = true ∧ f32IsNan (f32Sub x y) = true ∧ f32IsNan (f32Mul x y) = true ∧
      f32IsNan (f32Mul y x) = true) ∧
  (∀ x : Sample, f32IsZero x = true → f32IsNan (f32Mul x 0x7F800000#32) = true ∧
    f32IsNan (f32Mul 0xFF800000#32 x) = true) ∧
  f32IsNan (f32Sub 0x7F800000#32 0x7F800000#32) = true

/-! ## The transform and the OLA Convolver -/

/-- R101: in the ideal instance the inverse transform undoes the forward transform. -/
def Obligations.InverseUndoesForward : Prop :=
  ∀ (ord : Nat) (a : List (ℝ × ℝ)), a.length = 2 ^ ord → ideal.inv ord (ideal.fwd ord a) = a

/-- R106: in the ideal instance the energy of a transform is `K` times the energy of the sequence, so it is 0 exactly
when every element is 0. -/
def Obligations.TransformEnergyIsParseval : Prop :=
  ∀ (ord : Nat) (a : List (ℝ × ℝ)), a.length = 2 ^ ord →
    spectralEnergy ideal (ideal.fwd ord a) = 2 ^ ord * (a.map fun z => z.1 ^ 2 + z.2 ^ 2).sum ∧
    (spectralEnergy ideal (ideal.fwd ord a) = 0 ↔ ∀ z ∈ a, z = (0, 0))

/-- R103: the circular convolution theorem in the ideal instance: the inverse of a product of transforms of real
sequences is real and is their circular convolution. -/
def Obligations.CircularConvolution : Prop :=
  ∀ (ord : Nat) (a b : List ℝ), a.length = 2 ^ ord → b.length = 2 ^ ord →
    ideal.inv ord (olaProduct ideal (ideal.fwd ord (b.map fun s => (s, 0))) (ideal.fwd ord (a.map fun s => (s, 0)))) =
      (List.range (2 ^ ord)).map fun i => (circularConv (2 ^ ord) a b i, 0)

/-- R139, R103, R133: with `K >= m + N - 1` the OLA Convolver's `z` is the linear convolution of the block with the IR,
and 0 past it: nothing wraps around. -/
def Obligations.BlockConvolvesLinearly : Prop :=
  ∀ (ord : Nat) (h x : List ℝ), 1 ≤ h.length → x.length + h.length - 1 ≤ 2 ^ ord →
    olaConv ideal ord (filterSpectrum ideal ord h) x = (List.range (2 ^ ord)).map (linearConv h x)

/-- R145: in the ideal instance, after any blocks of legal lengths since construction or `reset`, the outputs so far are
the first `L` samples of the linear convolution of all the input with the IR, and the overlap buffer, which `flush` returns,
holds the next `N - 1`. -/
def Obligations.OverlapHoldsUnemittedTail : Prop :=
  ∀ (ord b : Nat) (h : List ℝ) (blocks : List (List ℝ)) (o : Ola ℝ), 1 ≤ h.length → b + h.length - 1 ≤ 2 ^ ord →
    (∀ x ∈ blocks, 1 ≤ x.length ∧ x.length ≤ b) →
    (o = olaConstruct ideal h.length ∨ ∃ old : Ola ℝ, o = olaReset ideal h.length old) →
    (olaRun ideal h.length ord (filterSpectrum ideal ord h) o blocks).1 =
      (List.range blocks.flatten.length).map (linearConv h blocks.flatten) ∧
    olaFlush (olaRun ideal h.length ord (filterSpectrum ideal ord h) o blocks).2 =
      (List.range (h.length - 1)).map fun t => linearConv h blocks.flatten (blocks.flatten.length + t)

/-- R146, cross-validation in the ideal instance: for any IR and any stream in blocks of legal lengths, the OLA
Convolver's outputs and a final `flush` are the Direct Convolver's outputs for the stream and `N - 1` zeros. -/
def Obligations.ConvolversAgree : Prop :=
  ∀ (ord b : Nat) (h : List ℝ) (blocks : List (List ℝ)), 1 ≤ h.length → b + h.length - 1 ≤ 2 ^ ord →
    (∀ x ∈ blocks, 1 ≤ x.length ∧ x.length ≤ b) →
    olaTotal ideal ord h blocks = directTotal ideal h blocks

/-- R140, R141, R142, in every instance: with `z` the inverse transform's real parts and `ov` the old overlap, output `i`
is `z[i] + ov[i]` below `N - 1` and `z[i]` from there on, and new overlap `t` is `ov[t + m] + z[m + t]` where `t + m` is
below `N - 1`, else `z[m + t]`; there are `m` outputs and `N - 1` overlap elements. Where `ov` or `z` is shorter than R32 and
R133 make it, the model reads 0 past its end (log 13). -/
def Obligations.OverlapAddEquations : Prop :=
  ∀ (α : Type) (A : Arith α) (n ord : Nat) (spec : List (α × α)) (ov x z : List α),
    z = (A.inv ord (List.zipWith (complexMul A) (A.fwd ord (padBlock A ord x)) spec)).map Prod.fst →
    ∀ r : List α × Ola α, r = olaBlock A n ord spec { ovl := ov } x →
      r.1.length = x.length ∧ r.2.ovl.length = n - 1 ∧
      (∀ i : Nat, i < x.length →
        r.1[i]? = some (if i < n - 1 then A.add (z.getD i A.zero) (ov.getD i A.zero) else z.getD i A.zero)) ∧
      (∀ t : Nat, t < n - 1 → r.2.ovl[t]? = some
        (if t + x.length < n - 1 then A.add (ov.getD (t + x.length) A.zero) (z.getD (x.length + t) A.zero)
         else z.getD (x.length + t) A.zero))

/-- R108, R142, U4: in the `NUM` instance a block is ordinary when no sample of the block `x`, of the old overlap, of the IR
or of its spectrum, of the transform `X` of the block, of the product `Y`, of its inverse transform, of the output or of the
new overlap has exponent 255 (is infinite or NaN). An ordinary block follows R142; on any other, every output sample and every
overlap element is a free value (which blocks these are: log 4). The statement holds for every choice of the free values. -/
def Obligations.NumBlockFollowsRuleOrIsFree : Prop :=
  ∀ (A : Arith Sample) (free : Nat → Sample) (n ord : Nat) (hmem : List Sample) (spec : List Cplx) (o : Ola Sample)
    (x : List Sample) (fin : Sample → Prop) (bigX bigY : List Cplx) (ordinary : Prop),
    (∀ w : Sample, fin w ↔ w.extractLsb' 23 8 ≠ 255#8) →
    bigX = A.fwd ord (padBlock A ord x) → bigY = List.zipWith (complexMul A) bigX spec →
    (ordinary ↔ (∀ w ∈ x, fin w) ∧ (∀ w ∈ o.ovl, fin w) ∧ (∀ w ∈ hmem, fin w) ∧ (∀ z ∈ spec, fin z.1 ∧ fin z.2) ∧
      (∀ z ∈ bigX, fin z.1 ∧ fin z.2) ∧ (∀ z ∈ bigY, fin z.1 ∧ fin z.2) ∧ (∀ z ∈ A.inv ord bigY, fin z.1 ∧ fin z.2) ∧
      (∀ w ∈ (olaBlock A n ord spec o x).1, fin w) ∧ (∀ w ∈ (olaBlock A n ord spec o x).2.ovl, fin w)) →
    (ordinary → olaBlockNum A free n ord hmem spec o x = olaBlock A n ord spec o x) ∧
    (¬ ordinary → olaBlockNum A free n ord hmem spec o x =
      ((List.range x.length).map free, { ovl := (List.range (n - 1)).map fun t => free (x.length + t) }))

/-- R147, idempotent silence of the OLA Convolver in the `NUM` instance, for a transform pair that keeps zeros zero (the
model's reading of `XFORM_ZERO`, log 16): after construction or `reset`, a block of zeros on a finite filter gives
samples that compare equal to 0 and leaves the overlap so. -/
def Obligations.OlaSilence : Prop :=
  ∀ (fwd inv : Nat → List Cplx → Nat → Cplx) (n ord m : Nat) (spec : List Cplx) (o : Ola Sample),
    XformKeepsZero (numWith fwd inv) → ord ≤ 14 → spec.length = 2 ^ ord → spec.all cplxFinite = true → 1 ≤ n →
    m + n - 1 ≤ 2 ^ ord →
    (olaBlock (numWith fwd inv) n ord spec (olaReset (numWith fwd inv) n o) (List.replicate m 0#32)).1.all f32IsZero
      = true ∧
    (olaBlock (numWith fwd inv) n ord spec (olaReset (numWith fwd inv) n o) (List.replicate m 0#32)).2.ovl.all f32IsZero
      = true
end

