-- ==== Sys2Proof/Laws/Fields.lean ====
section
/-! SUPPORT. The fields of an encoded header word and parameter word (R71, R72). -/

namespace Sys2Proof

theorem Opcode.code_lt (op : Opcode) : op.code < 16 := by cases op <;> decide

theorem headerWord_toNat (op : Opcode) (a ch len : Nat) (ha : a < 16) (hc : ch < 256) (hl : len < 65536) :
    (headerWord op a ch len).toNat = op.code * 2 ^ 28 + a * 2 ^ 24 + ch * 2 ^ 16 + len := by
  have := op.code_lt
  simp only [headerWord, BitVec.toNat_ofNat]
  omega

theorem opField_headerWord (op : Opcode) (a ch len : Nat) (ha : a < 16) (hc : ch < 256) (hl : len < 65536) :
    opField (headerWord op a ch len) = op.code := by
  simp only [opField, headerWord_toNat op a ch len ha hc hl]; omega

theorem minorField_headerWord (op : Opcode) (a ch len : Nat) (ha : a < 16) (hc : ch < 256) (hl : len < 65536) :
    minorField (headerWord op a ch len) = a := by
  simp only [minorField, headerWord_toNat op a ch len ha hc hl]; omega

theorem chanField_headerWord (op : Opcode) (a ch len : Nat) (ha : a < 16) (hc : ch < 256) (hl : len < 65536) :
    chanField (headerWord op a ch len) = ch := by
  simp only [chanField, headerWord_toNat op a ch len ha hc hl]; omega

theorem lenField_headerWord (op : Opcode) (a ch len : Nat) (ha : a < 16) (hc : ch < 256) (hl : len < 65536) :
    lenField (headerWord op a ch len) = len := by
  simp only [lenField, headerWord_toNat op a ch len ha hc hl]; omega

theorem paramWord_toNat (ord bsz : Nat) (ho : ord < 32) (hb : bsz < 65536) :
    (paramWord ord bsz).toNat = ord * 2 ^ 16 + bsz := by
  simp only [paramWord, BitVec.toNat_ofNat]; omega

theorem w1Reserved_paramWord (ord bsz : Nat) (ho : ord < 32) (hb : bsz < 65536) : w1Reserved (paramWord ord bsz) = 0 := by
  simp only [w1Reserved, paramWord_toNat ord bsz ho hb]; omega

theorem ordField_paramWord (ord bsz : Nat) (ho : ord < 32) (hb : bsz < 65536) : ordField (paramWord ord bsz) = ord := by
  simp only [ordField, paramWord_toNat ord bsz ho hb]; omega

theorem bszField_paramWord (ord bsz : Nat) (ho : ord < 32) (hb : bsz < 65536) : bszField (paramWord ord bsz) = bsz := by
  simp only [bszField, paramWord_toNat ord bsz ho hb]; omega

end Sys2Proof
end

