-- ==== Sys2Proof/Laws/State.lean ====
section
/-! SUPPORT. The fields of an updated state: one lemma per field per update, so that no proof unfolds an update. -/

namespace Sys2Proof.Machine

/-! recv -/

@[simp] theorem State.recv_fault (p : Port) (k : Nat) (s : State) : (s.recv p k).fault = s.fault := by
  cases p <;> rfl
@[simp] theorem State.recv_alg (p : Port) (k : Nat) (s : State) : (s.recv p k).alg = s.alg := by
  cases p <;> rfl
@[simp] theorem State.recv_cset (p : Port) (k : Nat) (s : State) : (s.recv p k).cset = s.cset := by
  cases p <;> rfl
@[simp] theorem State.recv_pend (p : Port) (k : Nat) (s : State) : (s.recv p k).pend = s.pend := by
  cases p <;> rfl
@[simp] theorem State.recv_cpOut (p : Port) (k : Nat) (s : State) : (s.recv p k).cpOut = s.cpOut := by
  cases p <;> rfl
@[simp] theorem State.recv_rpOut (p : Port) (k : Nat) (s : State) : (s.recv p k).rpOut = s.rpOut := by
  cases p <;> rfl
@[simp] theorem State.recv_nch (p : Port) (k : Nat) (s : State) : (s.recv p k).nch = s.nch := by
  cases p <;> rfl
@[simp] theorem State.recv_sched (p : Port) (k : Nat) (s : State) : (s.recv p k).sched = s.sched := by
  cases p <;> rfl
@[simp] theorem State.recv_draws (p : Port) (k : Nat) (s : State) : (s.recv p k).draws = s.draws := by
  cases p <;> rfl

@[simp] theorem State.recv_rp_rpIn (k : Nat) (s : State) : (s.recv .rp k).rpIn = s.rpIn.drop k := rfl
@[simp] theorem State.recv_rp_ccRp (k : Nat) (s : State) : (s.recv .rp k).ccRp = s.ccRp + k := rfl
@[simp] theorem State.recv_rp_cpIn (k : Nat) (s : State) : (s.recv .rp k).cpIn = s.cpIn := rfl
@[simp] theorem State.recv_rp_ccCp (k : Nat) (s : State) : (s.recv .rp k).ccCp = s.ccCp := rfl
@[simp] theorem State.recv_cp_cpIn (k : Nat) (s : State) : (s.recv .cp k).cpIn = s.cpIn.drop k := rfl
@[simp] theorem State.recv_cp_ccCp (k : Nat) (s : State) : (s.recv .cp k).ccCp = s.ccCp + k := rfl
@[simp] theorem State.recv_cp_rpIn (k : Nat) (s : State) : (s.recv .cp k).rpIn = s.rpIn := rfl
@[simp] theorem State.recv_cp_ccRp (k : Nat) (s : State) : (s.recv .cp k).ccRp = s.ccRp := rfl

/-! send -/

@[simp] theorem State.send_fault (p : Port) (ws : List Word) (s : State) : (s.send p ws).fault = s.fault := by
  cases p <;> rfl
@[simp] theorem State.send_alg (p : Port) (ws : List Word) (s : State) : (s.send p ws).alg = s.alg := by
  cases p <;> rfl
@[simp] theorem State.send_ccCp (p : Port) (ws : List Word) (s : State) : (s.send p ws).ccCp = s.ccCp := by
  cases p <;> rfl
@[simp] theorem State.send_ccRp (p : Port) (ws : List Word) (s : State) : (s.send p ws).ccRp = s.ccRp := by
  cases p <;> rfl
@[simp] theorem State.send_cset (p : Port) (ws : List Word) (s : State) : (s.send p ws).cset = s.cset := by
  cases p <;> rfl
@[simp] theorem State.send_pend (p : Port) (ws : List Word) (s : State) : (s.send p ws).pend = s.pend := by
  cases p <;> rfl
@[simp] theorem State.send_cpIn (p : Port) (ws : List Word) (s : State) : (s.send p ws).cpIn = s.cpIn := by
  cases p <;> rfl
@[simp] theorem State.send_rpIn (p : Port) (ws : List Word) (s : State) : (s.send p ws).rpIn = s.rpIn := by
  cases p <;> rfl
@[simp] theorem State.send_nch (p : Port) (ws : List Word) (s : State) : (s.send p ws).nch = s.nch := by
  cases p <;> rfl
@[simp] theorem State.send_sched (p : Port) (ws : List Word) (s : State) : (s.send p ws).sched = s.sched := by
  cases p <;> rfl
@[simp] theorem State.send_draws (p : Port) (ws : List Word) (s : State) : (s.send p ws).draws = s.draws := by
  cases p <;> rfl

@[simp] theorem State.send_rp_rpOut (ws : List Word) (s : State) : (s.send .rp ws).rpOut = s.rpOut ++ ws := rfl
@[simp] theorem State.send_rp_cpOut (ws : List Word) (s : State) : (s.send .rp ws).cpOut = s.cpOut := rfl
@[simp] theorem State.send_cp_cpOut (ws : List Word) (s : State) : (s.send .cp ws).cpOut = s.cpOut ++ ws := rfl
@[simp] theorem State.send_cp_rpOut (ws : List Word) (s : State) : (s.send .cp ws).rpOut = s.rpOut := rfl

/-! supply -/

@[simp] theorem State.supply_fault (p : Port) (ws : List Word) (s : State) : (s.supply p ws).fault = s.fault := by
  cases p <;> rfl
@[simp] theorem State.supply_alg (p : Port) (ws : List Word) (s : State) : (s.supply p ws).alg = s.alg := by
  cases p <;> rfl
@[simp] theorem State.supply_ccCp (p : Port) (ws : List Word) (s : State) : (s.supply p ws).ccCp = s.ccCp := by
  cases p <;> rfl
@[simp] theorem State.supply_ccRp (p : Port) (ws : List Word) (s : State) : (s.supply p ws).ccRp = s.ccRp := by
  cases p <;> rfl
@[simp] theorem State.supply_cset (p : Port) (ws : List Word) (s : State) : (s.supply p ws).cset = s.cset := by
  cases p <;> rfl
@[simp] theorem State.supply_pend (p : Port) (ws : List Word) (s : State) : (s.supply p ws).pend = s.pend := by
  cases p <;> rfl
@[simp] theorem State.supply_cpOut (p : Port) (ws : List Word) (s : State) : (s.supply p ws).cpOut = s.cpOut := by
  cases p <;> rfl
@[simp] theorem State.supply_rpOut (p : Port) (ws : List Word) (s : State) : (s.supply p ws).rpOut = s.rpOut := by
  cases p <;> rfl
@[simp] theorem State.supply_nch (p : Port) (ws : List Word) (s : State) : (s.supply p ws).nch = s.nch := by
  cases p <;> rfl
@[simp] theorem State.supply_sched (p : Port) (ws : List Word) (s : State) : (s.supply p ws).sched = s.sched := by
  cases p <;> rfl
@[simp] theorem State.supply_draws (p : Port) (ws : List Word) (s : State) : (s.supply p ws).draws = s.draws := by
  cases p <;> rfl

@[simp] theorem State.supply_rp_rpIn (ws : List Word) (s : State) : (s.supply .rp ws).rpIn = s.rpIn ++ ws := rfl
@[simp] theorem State.supply_rp_cpIn (ws : List Word) (s : State) : (s.supply .rp ws).cpIn = s.cpIn := rfl
@[simp] theorem State.supply_cp_cpIn (ws : List Word) (s : State) : (s.supply .cp ws).cpIn = s.cpIn ++ ws := rfl
@[simp] theorem State.supply_cp_rpIn (ws : List Word) (s : State) : (s.supply .cp ws).rpIn = s.rpIn := rfl

/-! answer -/

@[simp] theorem State.answer_fault (p : Port) (op : Opcode) (info : BitVec 8) (cnt : Nat) (pl : List Sample) (s : State) : (s.answer p op info cnt pl).fault = s.fault := by
  cases p <;> rfl
@[simp] theorem State.answer_alg (p : Port) (op : Opcode) (info : BitVec 8) (cnt : Nat) (pl : List Sample) (s : State) : (s.answer p op info cnt pl).alg = s.alg := by
  cases p <;> rfl
@[simp] theorem State.answer_ccCp (p : Port) (op : Opcode) (info : BitVec 8) (cnt : Nat) (pl : List Sample) (s : State) : (s.answer p op info cnt pl).ccCp = s.ccCp := by
  cases p <;> rfl
@[simp] theorem State.answer_ccRp (p : Port) (op : Opcode) (info : BitVec 8) (cnt : Nat) (pl : List Sample) (s : State) : (s.answer p op info cnt pl).ccRp = s.ccRp := by
  cases p <;> rfl
@[simp] theorem State.answer_cset (p : Port) (op : Opcode) (info : BitVec 8) (cnt : Nat) (pl : List Sample) (s : State) : (s.answer p op info cnt pl).cset = s.cset := by
  cases p <;> rfl
@[simp] theorem State.answer_pend (p : Port) (op : Opcode) (info : BitVec 8) (cnt : Nat) (pl : List Sample) (s : State) : (s.answer p op info cnt pl).pend = s.pend := by
  cases p <;> rfl
@[simp] theorem State.answer_cpIn (p : Port) (op : Opcode) (info : BitVec 8) (cnt : Nat) (pl : List Sample) (s : State) : (s.answer p op info cnt pl).cpIn = s.cpIn := by
  cases p <;> rfl
@[simp] theorem State.answer_rpIn (p : Port) (op : Opcode) (info : BitVec 8) (cnt : Nat) (pl : List Sample) (s : State) : (s.answer p op info cnt pl).rpIn = s.rpIn := by
  cases p <;> rfl
@[simp] theorem State.answer_nch (p : Port) (op : Opcode) (info : BitVec 8) (cnt : Nat) (pl : List Sample) (s : State) : (s.answer p op info cnt pl).nch = s.nch := by
  cases p <;> rfl
@[simp] theorem State.answer_sched (p : Port) (op : Opcode) (info : BitVec 8) (cnt : Nat) (pl : List Sample) (s : State) : (s.answer p op info cnt pl).sched = s.sched := by
  cases p <;> rfl
@[simp] theorem State.answer_draws (p : Port) (op : Opcode) (info : BitVec 8) (cnt : Nat) (pl : List Sample) (s : State) : (s.answer p op info cnt pl).draws = s.draws := by
  cases p <;> rfl

@[simp] theorem State.answer_rp_rpOut (op : Opcode) (info : BitVec 8) (cnt : Nat) (pl : List Sample) (s : State) :
    (s.answer .rp op info cnt pl).rpOut = s.rpOut ++ responseWord (opcodeBits op) statusOk info (BitVec.ofNat 16 cnt) :: pl := rfl
@[simp] theorem State.answer_rp_cpOut (op : Opcode) (info : BitVec 8) (cnt : Nat) (pl : List Sample) (s : State) :
    (s.answer .rp op info cnt pl).cpOut = s.cpOut := rfl
@[simp] theorem State.answer_cp_cpOut (op : Opcode) (info : BitVec 8) (cnt : Nat) (pl : List Sample) (s : State) :
    (s.answer .cp op info cnt pl).cpOut = s.cpOut ++ responseWord (opcodeBits op) statusOk info (BitVec.ofNat 16 cnt) :: pl := rfl
@[simp] theorem State.answer_cp_rpOut (op : Opcode) (info : BitVec 8) (cnt : Nat) (pl : List Sample) (s : State) :
    (s.answer .cp op info cnt pl).rpOut = s.rpOut := rfl

/-! raiseFault -/

@[simp] theorem State.raiseFault_alg (p : Port) (rop : BitVec 4) (f : FaultCode) (s : State) : (s.raiseFault p rop f).alg = s.alg := by
  cases p <;> rfl
@[simp] theorem State.raiseFault_ccCp (p : Port) (rop : BitVec 4) (f : FaultCode) (s : State) : (s.raiseFault p rop f).ccCp = s.ccCp := by
  cases p <;> rfl
@[simp] theorem State.raiseFault_ccRp (p : Port) (rop : BitVec 4) (f : FaultCode) (s : State) : (s.raiseFault p rop f).ccRp = s.ccRp := by
  cases p <;> rfl
@[simp] theorem State.raiseFault_cset (p : Port) (rop : BitVec 4) (f : FaultCode) (s : State) : (s.raiseFault p rop f).cset = s.cset := by
  cases p <;> rfl
@[simp] theorem State.raiseFault_pend (p : Port) (rop : BitVec 4) (f : FaultCode) (s : State) : (s.raiseFault p rop f).pend = s.pend := by
  cases p <;> rfl
@[simp] theorem State.raiseFault_cpIn (p : Port) (rop : BitVec 4) (f : FaultCode) (s : State) : (s.raiseFault p rop f).cpIn = s.cpIn := by
  cases p <;> rfl
@[simp] theorem State.raiseFault_rpIn (p : Port) (rop : BitVec 4) (f : FaultCode) (s : State) : (s.raiseFault p rop f).rpIn = s.rpIn := by
  cases p <;> rfl
@[simp] theorem State.raiseFault_nch (p : Port) (rop : BitVec 4) (f : FaultCode) (s : State) : (s.raiseFault p rop f).nch = s.nch := by
  cases p <;> rfl
@[simp] theorem State.raiseFault_sched (p : Port) (rop : BitVec 4) (f : FaultCode) (s : State) : (s.raiseFault p rop f).sched = s.sched := by
  cases p <;> rfl
@[simp] theorem State.raiseFault_draws (p : Port) (rop : BitVec 4) (f : FaultCode) (s : State) : (s.raiseFault p rop f).draws = s.draws := by
  cases p <;> rfl

@[simp] theorem State.raiseFault_fault (p : Port) (rop : BitVec 4) (f : FaultCode) (s : State) : (s.raiseFault p rop f).fault = f.code := by
  cases p <;> rfl
@[simp] theorem State.raiseFault_rp_rpOut (rop : BitVec 4) (f : FaultCode) (s : State) :
    (s.raiseFault .rp rop f).rpOut = s.rpOut ++ [responseWord rop f.code 0#8 0#16] := rfl
@[simp] theorem State.raiseFault_rp_cpOut (rop : BitVec 4) (f : FaultCode) (s : State) : (s.raiseFault .rp rop f).cpOut = s.cpOut := rfl
@[simp] theorem State.raiseFault_cp_cpOut (rop : BitVec 4) (f : FaultCode) (s : State) :
    (s.raiseFault .cp rop f).cpOut = s.cpOut ++ [responseWord rop f.code 0#8 0#16] := rfl
@[simp] theorem State.raiseFault_cp_rpOut (rop : BitVec 4) (f : FaultCode) (s : State) : (s.raiseFault .cp rop f).rpOut = s.rpOut := rfl

/-! skip -/

@[simp] theorem State.skip_fault (op : Opcode) (n : Nat) (k : SkipCode) (s : State) : (s.skip op n k).fault = s.fault := rfl
@[simp] theorem State.skip_alg (op : Opcode) (n : Nat) (k : SkipCode) (s : State) : (s.skip op n k).alg = s.alg := rfl
@[simp] theorem State.skip_ccCp (op : Opcode) (n : Nat) (k : SkipCode) (s : State) : (s.skip op n k).ccCp = s.ccCp := rfl
@[simp] theorem State.skip_cset (op : Opcode) (n : Nat) (k : SkipCode) (s : State) : (s.skip op n k).cset = s.cset := rfl
@[simp] theorem State.skip_pend (op : Opcode) (n : Nat) (k : SkipCode) (s : State) : (s.skip op n k).pend = s.pend := rfl
@[simp] theorem State.skip_cpIn (op : Opcode) (n : Nat) (k : SkipCode) (s : State) : (s.skip op n k).cpIn = s.cpIn := rfl
@[simp] theorem State.skip_cpOut (op : Opcode) (n : Nat) (k : SkipCode) (s : State) : (s.skip op n k).cpOut = s.cpOut := rfl
@[simp] theorem State.skip_nch (op : Opcode) (n : Nat) (k : SkipCode) (s : State) : (s.skip op n k).nch = s.nch := rfl
@[simp] theorem State.skip_sched (op : Opcode) (n : Nat) (k : SkipCode) (s : State) : (s.skip op n k).sched = s.sched := rfl
@[simp] theorem State.skip_draws (op : Opcode) (n : Nat) (k : SkipCode) (s : State) : (s.skip op n k).draws = s.draws := rfl

@[simp] theorem State.skip_ccRp (op : Opcode) (n : Nat) (k : SkipCode) (s : State) : (s.skip op n k).ccRp = s.ccRp + n := rfl
@[simp] theorem State.skip_rpIn (op : Opcode) (n : Nat) (k : SkipCode) (s : State) : (s.skip op n k).rpIn = s.rpIn.drop n := rfl
@[simp] theorem State.skip_rpOut (op : Opcode) (n : Nat) (k : SkipCode) (s : State) :
    (s.skip op n k).rpOut = s.rpOut ++ [responseWord (opcodeBits op) k.code 0#8 0#16] := rfl

/-! withSet -/

@[simp] theorem State.withSet_fault (cs : ConvSet) (s : State) : (s.withSet cs).fault = s.fault := rfl
@[simp] theorem State.withSet_alg (cs : ConvSet) (s : State) : (s.withSet cs).alg = s.alg := rfl
@[simp] theorem State.withSet_ccCp (cs : ConvSet) (s : State) : (s.withSet cs).ccCp = s.ccCp := rfl
@[simp] theorem State.withSet_ccRp (cs : ConvSet) (s : State) : (s.withSet cs).ccRp = s.ccRp := rfl
@[simp] theorem State.withSet_pend (cs : ConvSet) (s : State) : (s.withSet cs).pend = s.pend := rfl
@[simp] theorem State.withSet_cpIn (cs : ConvSet) (s : State) : (s.withSet cs).cpIn = s.cpIn := rfl
@[simp] theorem State.withSet_cpOut (cs : ConvSet) (s : State) : (s.withSet cs).cpOut = s.cpOut := rfl
@[simp] theorem State.withSet_rpIn (cs : ConvSet) (s : State) : (s.withSet cs).rpIn = s.rpIn := rfl
@[simp] theorem State.withSet_rpOut (cs : ConvSet) (s : State) : (s.withSet cs).rpOut = s.rpOut := rfl
@[simp] theorem State.withSet_nch (cs : ConvSet) (s : State) : (s.withSet cs).nch = s.nch := rfl
@[simp] theorem State.withSet_sched (cs : ConvSet) (s : State) : (s.withSet cs).sched = s.sched := rfl
@[simp] theorem State.withSet_draws (cs : ConvSet) (s : State) : (s.withSet cs).draws = s.draws := rfl

@[simp] theorem State.withSet_cset (cs : ConvSet) (s : State) : (s.withSet cs).cset = some cs := rfl

/-! choose -/

@[simp] theorem State.choose_fault (s : State) : s.choose.2.fault = s.fault := by
  unfold State.choose; split <;> rfl
@[simp] theorem State.choose_alg (s : State) : s.choose.2.alg = s.alg := by
  unfold State.choose; split <;> rfl
@[simp] theorem State.choose_ccCp (s : State) : s.choose.2.ccCp = s.ccCp := by
  unfold State.choose; split <;> rfl
@[simp] theorem State.choose_ccRp (s : State) : s.choose.2.ccRp = s.ccRp := by
  unfold State.choose; split <;> rfl
@[simp] theorem State.choose_cset (s : State) : s.choose.2.cset = s.cset := by
  unfold State.choose; split <;> rfl
@[simp] theorem State.choose_pend (s : State) : s.choose.2.pend = s.pend := by
  unfold State.choose; split <;> rfl
@[simp] theorem State.choose_cpIn (s : State) : s.choose.2.cpIn = s.cpIn := by
  unfold State.choose; split <;> rfl
@[simp] theorem State.choose_cpOut (s : State) : s.choose.2.cpOut = s.cpOut := by
  unfold State.choose; split <;> rfl
@[simp] theorem State.choose_rpIn (s : State) : s.choose.2.rpIn = s.rpIn := by
  unfold State.choose; split <;> rfl
@[simp] theorem State.choose_rpOut (s : State) : s.choose.2.rpOut = s.rpOut := by
  unfold State.choose; split <;> rfl
@[simp] theorem State.choose_nch (s : State) : s.choose.2.nch = s.nch := by
  unfold State.choose; split <;> rfl

/-! Updates of a set. -/

@[simp] theorem ConvSet.resetChannel_n (d o : Bool) (c : Nat) (cs : ConvSet) : (cs.resetChannel d o c).n = cs.n := rfl
@[simp] theorem ConvSet.resetChannel_b (d o : Bool) (c : Nat) (cs : ConvSet) : (cs.resetChannel d o c).b = cs.b := rfl
@[simp] theorem ConvSet.resetChannel_ord (d o : Bool) (c : Nat) (cs : ConvSet) :
    (cs.resetChannel d o c).ord = cs.ord := rfl
@[simp] theorem ConvSet.resetChannel_hmem (d o : Bool) (c : Nat) (cs : ConvSet) :
    (cs.resetChannel d o c).hmem = cs.hmem := rfl
@[simp] theorem ConvSet.resetChannel_spec (d o : Bool) (c : Nat) (cs : ConvSet) :
    (cs.resetChannel d o c).spec = cs.spec := rfl

end Sys2Proof.Machine
end

