-- ==== Sys2Proof/Laws/Ops.lean ====
section
/-! SUPPORT. What each shared operation can do, said once: the gate, the try-lock, the response and fault words, the
begin step of a build, the choice between the sequencers, and one step of a sequencer. -/

namespace Sys2Proof.Machine

theorem hasAtLeast_iff (k : Nat) (ws : List Word) : hasAtLeast k ws = true ↔ k ≤ ws.length := by
  induction k generalizing ws with
  | zero => simp [hasAtLeast]
  | succ k ih => cases ws <;> simp [hasAtLeast, ih]

/-! The two flags that are held as presence (log 7). -/

theorem rebuilding_eq_false_iff (s : State) : s.rebuilding = false ↔ s.pend = none := by simp [State.rebuilding]

theorem rebuilding_eq_true_iff (s : State) : s.rebuilding = true ↔ ∃ pd, s.pend = some pd := by
  simp [State.rebuilding, Option.isSome_iff_exists]

theorem irLoaded_eq_false_iff (s : State) : s.irLoaded = false ↔ s.cset = none := by simp [State.irLoaded]

theorem irLoaded_eq_true_iff (s : State) : s.irLoaded = true ↔ ∃ cs, s.cset = some cs := by
  simp [State.irLoaded, Option.isSome_iff_exists]

/-! The gate (R160). -/

theorem realTimeCommand_next_iff (k : Nat) (s t : State) (body : State → State) :
    realTimeCommand k s body = .next t ↔ s.fault = 0#4 ∧ k ≤ s.rpIn.length ∧ t = body s := by
  simp only [realTimeCommand, ← hasAtLeast_iff, eq_comm (a := t)]
  by_cases h0 : s.fault = 0#4 <;> by_cases hk : hasAtLeast k s.rpIn = true <;> simp [h0, hk]

theorem realTimeCommand_runs (k : Nat) (s : State) (body : State → State) (h0 : s.fault = 0#4) (hk : k ≤ s.rpIn.length) :
    realTimeCommand k s body = .next (body s) := (realTimeCommand_next_iff k s _ body).2 ⟨h0, hk, rfl⟩

theorem realTimeCommand_halted (k : Nat) (s : State) (body : State → State) (h0 : s.fault ≠ 0#4) :
    realTimeCommand k s body = .fault .halted := if_neg h0

theorem controlCommand_next_iff (k : Nat) (s t : State) (body : State → State) :
    controlCommand k s body = .next t ↔ s.fault = 0#4 ∧ s.pend = none ∧ k ≤ s.cpIn.length ∧ t = body s := by
  simp only [controlCommand, ← hasAtLeast_iff, ← rebuilding_eq_false_iff, eq_comm (a := t)]
  by_cases h0 : s.fault = 0#4 <;> by_cases hp : s.rebuilding = true <;> by_cases hk : hasAtLeast k s.cpIn = true <;>
    simp [h0, hp, hk]

theorem controlCommand_runs (k : Nat) (s : State) (body : State → State) (h0 : s.fault = 0#4) (hp : s.pend = none)
    (hk : k ≤ s.cpIn.length) : controlCommand k s body = .next (body s) :=
  (controlCommand_next_iff k s _ body).2 ⟨h0, hp, hk, rfl⟩

theorem controlCommand_halted (k : Nat) (s : State) (body : State → State) (h0 : s.fault ≠ 0#4) :
    controlCommand k s body = .fault .halted := if_neg h0

/-- A command answers a next state or stops for want of a step; it is never refused. -/
theorem exec_not_refused (i : Instr) (s : State) (r : Refusal) : exec i s ≠ .refused r := by
  cases i <;>
    simp only [exec, execQuery, execSelect, execReset, execFlush, execProc, execBuild, execBuildk, realTimeCommand, controlCommand] <;>
    split_ifs <;> simp

/-! The try-lock (R161). -/

theorem trylock_busy (op : Opcode) (n : Nat) (s : State) (body : ConvSet → State) (pd : Pending) (h : s.pend = some pd) :
    s.trylock op n body = s.skip op n .skipBusy := by simp [State.trylock, State.rebuilding, h]

theorem trylock_noIr (op : Opcode) (n : Nat) (s : State) (body : ConvSet → State) (hp : s.pend = none)
    (hc : s.cset = none) : s.trylock op n body = s.skip op n .skipNoIr := by
  simp [State.trylock, State.rebuilding, hp, hc]

theorem trylock_ready (op : Opcode) (n : Nat) (s : State) (body : ConvSet → State) (cs : ConvSet) (hp : s.pend = none)
    (hc : s.cset = some cs) : s.trylock op n body = body cs := by simp [State.trylock, State.rebuilding, hp, hc]

/-- Everything the try-lock can do: a skip with one of the two codes, or the body on the set. -/
theorem trylock_cases (op : Opcode) (n : Nat) (s : State) (body : ConvSet → State) :
    ((∃ pd, s.pend = some pd) ∧ s.trylock op n body = s.skip op n .skipBusy) ∨
    (s.pend = none ∧ s.cset = none ∧ s.trylock op n body = s.skip op n .skipNoIr) ∨
    (s.pend = none ∧ ∃ cs, s.cset = some cs ∧ s.trylock op n body = body cs) := by
  cases hp : s.pend with
  | some pd => exact .inl ⟨⟨pd, rfl⟩, trylock_busy op n s body pd hp⟩
  | none =>
    cases hc : s.cset with
    | none => exact .inr (.inl ⟨rfl, rfl, trylock_noIr op n s body hp hc⟩)
    | some cs => exact .inr (.inr ⟨rfl, cs, rfl, trylock_ready op n s body cs hp hc⟩)

/-! The begin step of a build (R167). -/

theorem buildBegin_fault (op : BuildOp) (n b o : Nat) (s : State) (f : FaultCode) (h : buildFault op n b o = some f) :
    buildBegin op n b o s = s.raiseFault .cp (opcodeBits op.opcode) f := by simp [buildBegin, h]

theorem buildBegin_begins (op : BuildOp) (n b o : Nat) (s : State) (h : buildFault op n b o = none) :
    buildBegin op n b o s =
      { s.recv .cp n with
        pend := some { op := op, n := n, b := b, ord := orderFor op n b o, h := s.cpIn.take n } } := by
  simp [buildBegin, h]

/-! The sequencers (R58, R160). -/

/-- Everything a step that answers a next state can be: a commit, an illegal command, or a command, by one of the two
sequencers; `u` is the state once the choice between them is made. -/
theorem step_cases {s t : State} (h : step s = .next t) :
    s.fault = 0#4 ∧ ∃ u : State, (u = s ∨ u = s.choose.2) ∧
      ((∃ pd, u.pend = some pd ∧ t = buildCommit pd u) ∨
       (∃ p why rop k, (p = .cp → u.pend = none) ∧ u.fetch p = .illegal why rop k ∧
          t = (u.recv p k).raiseFault p rop .fIllegalCmd) ∨
       (∃ p i k, (p = .cp → u.pend = none) ∧ u.fetch p = .command i k ∧ exec i (u.recv p k) = .next t)) := by
  have run : ∀ p (u : State), (p = .cp → u.pend = none) → runCommand p u = .next t →
      (∃ p why rop k, (p = .cp → u.pend = none) ∧ u.fetch p = .illegal why rop k ∧
          t = (u.recv p k).raiseFault p rop .fIllegalCmd) ∨
       (∃ p i k, (p = .cp → u.pend = none) ∧ u.fetch p = .command i k ∧ exec i (u.recv p k) = .next t) := by
    intro p u hp hr
    unfold runCommand at hr
    split at hr
    · simp at hr
    · rename_i why rop k hf
      exact .inl ⟨p, why, rop, k, hp, hf, by simpa using hr.symm⟩
    · rename_i i k hf
      exact .inr ⟨p, i, k, hp, hf, hr⟩
  have agent : ∀ p (u : State), agentStep p u = .next t →
      ((∃ pd, u.pend = some pd ∧ t = buildCommit pd u) ∨
      (∃ p why rop k, (p = .cp → u.pend = none) ∧ u.fetch p = .illegal why rop k ∧
          t = (u.recv p k).raiseFault p rop .fIllegalCmd) ∨
       (∃ p i k, (p = .cp → u.pend = none) ∧ u.fetch p = .command i k ∧ exec i (u.recv p k) = .next t)) := by
    intro p u ha
    cases p with
    | rp => exact .inr (run .rp u (by simp) (by simpa [agentStep] using ha))
    | cp =>
      cases hp : u.pend with
      | none =>
        have ha' : runCommand .cp u = .next t := by simpa [agentStep, hp] using ha
        rcases run .cp u (fun _ => hp) ha' with h1 | h1
        · exact .inr (.inl (by simpa [hp] using h1))
        · exact .inr (.inr (by simpa [hp] using h1))
      | some pd => exact .inl ⟨pd, rfl, by simpa [agentStep, hp] using ha.symm⟩
  unfold step machineStep at h
  split at h
  · rename_i h0
    refine ⟨h0, ?_⟩
    split at h
    · exact ⟨_, .inr rfl, agent _ _ h⟩
    · exact ⟨s, .inl rfl, agent _ _ h⟩
    · exact ⟨s, .inl rfl, agent _ _ h⟩
    · simp at h
  · simp at h

/-! The arms of the dispatch, and a commit. -/

@[simp] theorem exec_query (s : State) : exec .query s = execQuery s := rfl
@[simp] theorem exec_select (a : Alg) (s : State) : exec (.select a) s = execSelect a s := rfl
@[simp] theorem exec_reset (d o : Bool) (c : Nat) (s : State) : exec (.reset d o c) s = execReset d o c s := rfl
@[simp] theorem exec_flush (c : Nat) (s : State) : exec (.flush c) s = execFlush c s := rfl
@[simp] theorem exec_proc (m : Nat) (s : State) : exec (.proc m) s = execProc m s := rfl
@[simp] theorem exec_build (n b : Nat) (s : State) : exec (.build n b) s = execBuild n b s := rfl
@[simp] theorem exec_buildk (n b ord : Nat) (s : State) : exec (.buildk n b ord) s = execBuildk n b ord s := rfl

/-- Everything a commit can do: the fault of a zero spectrum, or the installed set. -/
theorem buildCommit_cases (pd : Pending) (s : State) :
    (f32IsZero (spectralEnergy num (filterSpectrum num pd.ord pd.h)) = true ∧
      buildCommit pd s = s.raiseFault .cp (opcodeBits pd.op.opcode) .fZeroSpectrum) ∨
    (f32IsZero (spectralEnergy num (filterSpectrum num pd.ord pd.h)) = false ∧
      buildCommit pd s =
        { s.withSet (ConvSet.construct s.nch pd (filterSpectrum num pd.ord pd.h)) with pend := none }.answer .cp
          pd.op.opcode (BitVec.ofNat 8 pd.ord) 0 []) := by
  cases h : f32IsZero (spectralEnergy num (filterSpectrum num pd.ord pd.h)) <;> simp [buildCommit, h]

/-! The choice between the sequencers changes nothing a sequencer looks at (R58). -/

theorem choose_inStream (s : State) (p : Port) : s.choose.2.inStream p = s.inStream p := by
  cases p <;> simp [State.inStream]

theorem choose_fetch (s : State) (p : Port) : s.choose.2.fetch p = s.fetch p := by
  simp [State.fetch, choose_inStream]

theorem choose_canStep (s : State) (p : Port) : s.choose.2.canStep p = s.canStep p := by
  cases p <;> simp [State.canStep, State.hasCommand, choose_fetch, choose_inStream, State.rebuilding]

/-- Where the sequencer of port `p` moves, the step is its step. -/
theorem step_of_moves {p : Port} {s u : State} (h : s.moves p u) :
    step s = agentStep p u ∧ (u = s ∨ u = s.choose.2) := by
  obtain ⟨h0, h1, h2⟩ := h
  unfold step machineStep
  rw [if_pos h0]
  rcases h2 with ⟨h2, rfl⟩ | ⟨h2, h3⟩
  · cases p <;> simp [otherPort] at h2 <;> simp [h1, h2]
  · cases p <;> simp [otherPort] at h2 <;> simp [h1, h2, h3]

end Sys2Proof.Machine
end

