-- ==== Sys2Proof/Laws/PerInstr.lean ====
section
/-! SUPPORT. A statement about every command as syntax: its header words and the bit that names its port (R70, R76). -/

namespace Sys2Proof.Laws.HeaderShape

open Sys2Proof.Machine

/-- A well-formed command encodes in as many words as its format has header words, its opcode stands in `W0[31:28]`, and
bit 31 of `W0` is 1 exactly for control-port commands (R70, R71, R76). -/
def Statement (i : Instr) : Prop :=
  i.wf = true → ∃ w0 rest, encode i = w0 :: rest ∧ rest.length + 1 = headerWords i ∧ opField w0 = i.opcode.code ∧
    (2 ^ 31 ≤ w0.toNat ↔ i.port = .cp)

/-- Bit 31 of a word is the top bit of its opcode field. -/
theorem bit31_iff (w : Word) : 2 ^ 31 ≤ w.toNat ↔ 8 ≤ opField w := by
  have := w.isLt
  unfold opField
  omega

/-- The four facts for a header word with these fields. -/
theorem shape (op : Opcode) (a ch len : Nat) (ha : a < 16) (hc : ch < 256) (hl : len < 65536) :
    opField (headerWord op a ch len) = op.code ∧ (2 ^ 31 ≤ (headerWord op a ch len).toNat ↔ op.port = .cp) := by
  refine ⟨opField_headerWord op a ch len ha hc hl, ?_⟩
  rw [bit31_iff, opField_headerWord op a ch len ha hc hl]
  cases op <;> decide

theorem query : Statement .query := fun _ =>
  ⟨_, _, rfl, rfl, shape .query 0 0 0 (by decide) (by decide) (by decide)⟩

theorem select (a : Alg) : Statement (.select a) := fun _ =>
  ⟨_, _, rfl, rfl, shape .select a.bit 0 0 (by cases a <;> decide) (by decide) (by decide)⟩

theorem reset (direct ola : Bool) (c : Nat) : Statement (.reset direct ola c) := fun h =>
  ⟨_, _, rfl, rfl, shape .reset (direct.toNat + 2 * ola.toNat) c 0 (by cases direct <;> cases ola <;> decide)
    (by simpa [Instr.wf] using h) (by decide)⟩

theorem flush (c : Nat) : Statement (.flush c) := fun h =>
  ⟨_, _, rfl, rfl, shape .flush 0 c 0 (by decide) (by simpa [Instr.wf] using h) (by decide)⟩

theorem proc (m : Nat) : Statement (.proc m) := fun h =>
  ⟨_, _, rfl, rfl, shape .proc 0 0 m (by decide) (by decide) (by simpa [Instr.wf] using h)⟩

theorem build (n b : Nat) : Statement (.build n b) := fun h => by
  simp only [Instr.wf, Bool.and_eq_true, decide_eq_true_eq] at h
  exact ⟨_, _, rfl, rfl, shape .build 0 0 n (by decide) (by decide) h.1⟩

theorem buildk (n b ord : Nat) : Statement (.buildk n b ord) := fun h => by
  simp only [Instr.wf, Bool.and_eq_true, decide_eq_true_eq] at h
  exact ⟨_, _, rfl, rfl, shape .buildk 0 0 n (by decide) (by decide) h.1.1⟩

end Sys2Proof.Laws.HeaderShape
end

