-- ==== Sys2Proof/Laws/Units.lean ====
section
/-! SUPPORT. The unit operations keep their lengths and ranges (R32, R115, R133, R134), and the element at an index. -/

namespace Sys2Proof.Machine

variable {α : Type} (A : Arith α)

/-! Direct Convolver (R115). -/

theorem tapIndex_lt (n cur k : Nat) (hn : 1 ≤ n) : tapIndex n cur k < n := Nat.mod_lt _ hn

@[simp] theorem directConstruct_dly_length (n : Nat) : (directConstruct A n).dly.length = n := by simp [directConstruct]

@[simp] theorem directReset_eq_construct (n : Nat) (d : Direct α) : directReset A n d = directConstruct A n := rfl

@[simp] theorem directSample_dly_length (h : List α) (n : Nat) (d : Direct α) (x : α) :
    (directSample A h n d x).2.dly.length = d.dly.length := by simp [directSample]

@[simp] theorem directSample_cur (h : List α) (n : Nat) (d : Direct α) (x : α) :
    (directSample A h n d x).2.cur = (d.cur + 1) % n := rfl

theorem directBlock_nil (h : List α) (n : Nat) (d : Direct α) : directBlock A h n d [] = ([], d) := rfl

theorem directBlock_cons (h : List α) (n : Nat) (d : Direct α) (x : α) (xs : List α) :
    directBlock A h n d (x :: xs) =
      ((directSample A h n d x).1 :: (directBlock A h n (directSample A h n d x).2 xs).1,
       (directBlock A h n (directSample A h n d x).2 xs).2) := rfl

@[simp] theorem directBlock_output_length (h : List α) (n : Nat) (d : Direct α) (x : List α) :
    (directBlock A h n d x).1.length = x.length := by
  induction x generalizing d with
  | nil => rfl
  | cons a x ih => simp [directBlock_cons, ih]

@[simp] theorem directBlock_dly_length (h : List α) (n : Nat) (d : Direct α) (x : List α) :
    (directBlock A h n d x).2.dly.length = d.dly.length := by
  induction x generalizing d with
  | nil => rfl
  | cons a x ih => simp [directBlock_cons, ih]

theorem directBlock_cur_lt (h : List α) (n : Nat) (d : Direct α) (x : List α) (hd : d.cur < n) :
    (directBlock A h n d x).2.cur < n := by
  induction x generalizing d with
  | nil => exact hd
  | cons a x ih => exact ih _ (Nat.mod_lt _ (by omega))

/-! OLA Convolver (R32 item 4, R133, R134). -/

@[simp] theorem olaConstruct_ovl_length (n : Nat) : (olaConstruct A n).ovl.length = n - 1 := by simp [olaConstruct]

@[simp] theorem olaReset_eq_construct (n : Nat) (o : Ola α) : olaReset A n o = olaConstruct A n := rfl

@[simp] theorem olaOutput_length (n m : Nat) (z ov : List α) : (olaOutput A n m z ov).length = m := by simp [olaOutput]

@[simp] theorem olaOverlap_length (n m : Nat) (z ov : List α) : (olaOverlap A n m z ov).length = n - 1 := by
  simp [olaOverlap]

@[simp] theorem olaBlock_output_length (n ord : Nat) (spec : List (α × α)) (o : Ola α) (x : List α) :
    (olaBlock A n ord spec o x).1.length = x.length := by simp [olaBlock]

@[simp] theorem olaBlock_ovl_length (n ord : Nat) (spec : List (α × α)) (o : Ola α) (x : List α) :
    (olaBlock A n ord spec o x).2.ovl.length = n - 1 := by simp [olaBlock]

@[simp] theorem olaBlockNum_output_length (B : Arith Sample) (free : Nat → Sample) (n ord : Nat) (hmem : List Sample)
    (spec : List Cplx) (o : Ola Sample) (x : List Sample) :
    (olaBlockNum B free n ord hmem spec o x).1.length = x.length := by simp [olaBlockNum]

@[simp] theorem olaBlockNum_ovl_length (B : Arith Sample) (free : Nat → Sample) (n ord : Nat) (hmem : List Sample)
    (spec : List Cplx) (o : Ola Sample) (x : List Sample) :
    (olaBlockNum B free n ord hmem spec o x).2.ovl.length = n - 1 := by simp [olaBlockNum]

theorem padBlock_length (ord : Nat) (x : List α) (h : x.length ≤ 2 ^ ord) : (padBlock A ord x).length = 2 ^ ord := by
  simp [padBlock]; omega

theorem transformOf_length (f : Nat → List Cplx → Nat → Cplx) (ord : Nat) (a : List Cplx) (h : a.length = 2 ^ ord) :
    (transformOf f ord a).length = 2 ^ ord := by
  unfold transformOf
  split
  · subst_vars; simp_all
  · simp

theorem filterSpectrum_num_length (ord : Nat) (h : List Sample) (hl : h.length ≤ 2 ^ ord) :
    (filterSpectrum num ord h).length = 2 ^ ord :=
  transformOf_length _ ord _ (padBlock_length num ord h hl)

/-! Channels (R32 items 3 and 4). -/

theorem channelConstruct_ok (n : Nat) (hn : 1 ≤ n) : (channelConstruct n).Ok n where
  dly := by simp [channelConstruct]
  cur := hn
  ovl := by simp [channelConstruct]

theorem Channel.reset_ok (n : Nat) (d o : Bool) (ch : Channel) (h : ch.Ok n) : (ch.reset n d o).Ok n where
  dly := by cases d <;> simp [Channel.reset, h.dly]
  cur := by cases d <;> simp [Channel.reset, h.cur, directConstruct]; exact Nat.lt_of_le_of_lt (Nat.zero_le _) h.cur
  ovl := by cases o <;> simp [Channel.reset, h.ovl]

theorem Channel.proc_ok (alg : Alg) (cs : ConvSet) (draw c : Nat) (x : List Sample) (ch : Channel) (h : ch.Ok cs.n) :
    (ch.proc alg cs draw c x).2.Ok cs.n := by
  cases alg with
  | frequencyDomain => exact ⟨h.dly, h.cur, by simp [Channel.proc, Channel.olaProc]⟩
  | timeDomain =>
    exact ⟨by simp [Channel.proc, Channel.directProc, h.dly],
      directBlock_cur_lt num cs.hmem cs.n ch.direct x h.cur, h.ovl⟩

theorem Channel.proc_output_length (alg : Alg) (cs : ConvSet) (draw c : Nat) (x : List Sample) (ch : Channel) :
    (ch.proc alg cs draw c x).1.length = x.length := by
  cases alg <;> simp [Channel.proc, Channel.olaProc, Channel.directProc]

end Sys2Proof.Machine
end

