-- ==== Sys2Proof/Tests/Slice0.lean ====
section
/-! SUPPORT. The model's own tests. Expected values are the spec's (95_test_vectors.md and the examples at the rules) or
worked from its encodings by hand; each comment names the source. -/

namespace Sys2Proof.Tests

open Sys2Proof.Machine

/-! Well-formedness refuses an operand that does not fit its field. -/

theorem test_wf_refuses_wide_channel : (Instr.reset true true 256).wf = false ∧ (Instr.flush 256).wf = false := by decide
theorem test_wf_refuses_wide_length : (Instr.proc 65536).wf = false ∧ (Instr.build 65536 1).wf = false := by decide
theorem test_wf_refuses_wide_bound : (Instr.build 1 65536).wf = false ∧ (Instr.buildk 1 65536 0).wf = false := by decide
theorem test_wf_refuses_wide_order : (Instr.buildk 1 1 32).wf = false ∧ (Instr.buildk 65536 1 0).wf = false := by decide
theorem test_wf_accepts_largest : (Instr.buildk 65535 65535 31).wf = true ∧ (Instr.reset false true 255).wf = true := by
  decide

/-! Decoding: words written bit by bit from R71, R72, R76 (OP, A, CH, LEN; reserved, ORD, BSZ). -/

theorem test_decode_query : decode .rp [0b0001_0000_00000000_0000000000000000#32] = .command .query 1 := by decide
theorem test_decode_select :
    decode .rp [0b0010_0001_00000000_0000000000000000#32] = .command (.select .timeDomain) 1 ∧
    decode .rp [0b0010_0000_00000000_0000000000000000#32] = .command (.select .frequencyDomain) 1 := by decide
theorem test_decode_reset :
    decode .rp [0b0011_0001_00000101_0000000000000000#32] = .command (.reset true false 5) 1 ∧
    decode .rp [0b0011_0010_11111111_0000000000000000#32] = .command (.reset false true 255) 1 := by decide
theorem test_decode_flush : decode .rp [0b0100_0000_10000001_0000000000000000#32] = .command (.flush 129) 1 := by decide
theorem test_decode_proc : decode .rp [0b0101_0000_00000000_1000000000000001#32] = .command (.proc 32769) 1 := by decide
theorem test_decode_build :
    decode .cp [0b1000_0000_00000000_0000000000000100#32, 0b00000000000_00000_0000000000000011#32] =
      .command (.build 4 3) 2 := by decide
theorem test_decode_buildk :
    decode .cp [0b1001_0000_00000000_0000000000000100#32, 0b00000000000_11111_1000000000000100#32] =
      .command (.buildk 4 32772 31) 2 := by decide

/-- V40: illegal words, and how many words the decoder has taken. -/
theorem test_decode_illegal_real_time :
    decode .rp [0x00000000#32] = .illegal .undefinedOpcode 0 1 ∧ decode .rp [0xFFFFFFFF#32] = .illegal .undefinedOpcode 15 1 ∧
    decode .rp [0x80000004#32] = .illegal .wrongPort 8 1 ∧ decode .rp [0x10000001#32] = .illegal .reservedBit 1 1 ∧
    decode .rp [0x22000000#32] = .illegal .reservedBit 2 1 ∧ decode .rp [0x34000000#32] = .illegal .reservedBit 3 1 ∧
    decode .rp [0x30000001#32] = .illegal .reservedBit 3 1 ∧ decode .rp [0x41000000#32] = .illegal .reservedBit 4 1 ∧
    decode .rp [0x50010004#32] = .illegal .reservedBit 5 1 := by decide
theorem test_decode_illegal_control :
    decode .cp [0x50000001#32] = .illegal .wrongPort 5 1 ∧ decode .cp [0x80010004#32] = .illegal .reservedBit 8 1 ∧
    decode .cp [0x80000004#32, 0x00030004#32] = .illegal .reservedBitW1 8 2 ∧
    decode .cp [0x90000004#32, 0x00200004#32] = .illegal .reservedBitW1 9 2 ∧ decode .cp [0x90000004#32] = .incomplete := by
  decide

/-- The table's own numbering: a later word's bits count on from the first; port words little-endian (R52). -/
theorem test_table_words :
    decodeTableWord 32 0x33070000 = some (.reset true true 7) ∧
    decodeTableWord 64 0x0003000490000004 = some (.buildk 4 4 3) ∧ decodeTableWord 32 0x80000004 = some (.build 4 0) ∧
    decodeTableWord 32 0x60000000 = none := by decide

/-! Order derivation and the sizing test. -/

/-- V30. -/
theorem test_derived_order :
    derivedOrder 4 4 = 6 ∧ derivedOrder 1 1 = 6 ∧ derivedOrder 1 64 = 6 ∧ derivedOrder 1 65 = 7 ∧ derivedOrder 33 32 = 6 ∧
    derivedOrder 33 33 = 7 ∧ derivedOrder 1000 512 = 11 ∧ derivedOrder 8193 8192 = 14 ∧ derivedOrder 8194 8192 = 14 := by
  decide +kernel
/-- V30, V31 and V40: the first fault of the begin step. -/
theorem test_build_fault :
    buildFault .build 8193 8192 0 = none ∧ buildFault .build 8194 8192 0 = some .fSize ∧
    buildFault .build 16384 1 0 = none ∧ buildFault .build 16384 2 0 = some .fSize ∧
    buildFault .buildk 4 4 3 = none ∧ buildFault .buildk 4 4 2 = some .fSize ∧ buildFault .buildk 4 4 15 = some .fBadParam ∧
    buildFault .build 0 0 0 = some .fEmptyIr ∧ buildFault .build 1 0 0 = some .fBadParam ∧
    buildFault .buildk 0 1 15 = some .fEmptyIr := by decide +kernel

/-! binary32 (R84, R112). -/

/-- V16: each sum is a tie and rounds to even, so the order of accumulation shows. -/
theorem test_add_ties_to_even :
    f32Add (f32Add 0x3F800000 0x33800000) 0x33800000 = 0x3F800000 ∧
    f32Add (f32Add 0x33800000 0x33800000) 0x3F800000 = 0x3F800001 := by decide +kernel
/-- V18, V19, V29: NaN and infinity propagate, the sign of zero, underflow of `2^-75` squared. -/
theorem test_mul_special :
    f32IsNan (f32Mul 0 0x7FC00000) = true ∧ f32IsNan (f32Mul 0 0x7F800000) = true ∧ f32Add 0 0x80000000 = 0 ∧
    f32Mul 0x1A000000 0x1A000000 = 0 := by decide +kernel

/-! Direct Convolver. -/

/-- A Direct Convolver and its history, run on samples: outputs, delay line, cursor. -/
def runDirect (h x : List Sample) : List Sample × List Sample × Nat :=
  let r := directBlock num h h.length (directConstruct num h.length) x
  (r.1, r.2.dly, r.2.cur)

/-- V11: wraparound. -/
theorem test_direct_wraparound :
    runDirect [0x3F800000, 0x40000000, 0x40400000] [0x3F800000, 0x40000000, 0x40400000, 0x40800000, 0x40A00000] =
      ([0x3F800000, 0x40800000, 0x41200000, 0x41800000, 0x41B00000], [0x40800000, 0x40A00000, 0x40400000], 2) := by
  decide +kernel
/-- V17: rounded products and sums. -/
theorem test_direct_rounding :
    runDirect [0x3DCCCCCD, 0x3E4CCCCD, 0x3E99999A] [0x40400000, 0x3F333333, 0xC0000000, 0x3A83126F] =
      ([0x3E99999A, 0x3F2B851F, 0x3F570A3E, 0xBE427526], [0x3A83126F, 0x3F333333, 0xC0000000], 1) := by decide +kernel
/-- V18: a NaN sample propagates for `N` samples and then is gone. -/
theorem test_direct_nan :
    (runDirect [0x3F800000, 0] [0x7FC00000, 0x3F800000, 0x3F800000]).1.map f32IsNan = [true, true, false] := by
  decide +kernel
/-- V13, V19: `N = 1`; a zero output is `+0`. -/
theorem test_direct_short_and_zero :
    runDirect [0x40000000] [0x40400000, 0xBF800000] = ([0x40C00000, 0xC0000000], [0xBF800000], 0) ∧
    (runDirect [0x80000000, 0x3F800000] [0x3F800000, 0x80000000, 0]).1 = [0, 0x3F800000, 0] := by decide +kernel

/-! OLA Convolver, over an exact transform: numbers modulo 257 with a root of unity of order `2^ord`. -/

/-- Exact arithmetic modulo 257; 3 generates the units, 129 is the inverse of 2. -/
def mod257 : Arith Nat where
  zero := 0
  add x y := (x + y) % 257
  sub x y := (x + 257 - y) % 257
  mul x y := x * y % 257
  fwd ord a := (List.range (2 ^ ord)).map fun k =>
    (((List.range (2 ^ ord)).map fun n => (a.getD n (0, 0)).1 * 3 ^ (256 / 2 ^ ord * (k * n % 2 ^ ord))).sum % 257, 0)
  inv ord a := (List.range (2 ^ ord)).map fun k =>
    (129 ^ ord * ((List.range (2 ^ ord)).map fun n =>
      (a.getD n (0, 0)).1 * 3 ^ (256 / 2 ^ ord * (2 ^ ord - k * n % 2 ^ ord))).sum % 257, 0)

/-- Blocks through one OLA Convolver: outputs and the overlap at the end. -/
def runOla (ord : Nat) (h : List Nat) (blocks : List (List Nat)) : List Nat × List Nat :=
  let r := olaRun mod257 h.length ord (filterSpectrum mod257 ord h) (olaConstruct mod257 h.length) blocks
  (r.1, r.2.ovl)

/-- V20: `m < N - 1`, the overlap after the first call and after five. -/
theorem test_ola_short_blocks :
    runOla 3 [1, 2, 3, 4] [[1]] = ([1], [2, 3, 4]) ∧ runOla 3 [1, 2, 3, 4] [[1], [0]] = ([1, 2], [3, 4, 0]) ∧
    runOla 3 [1, 2, 3, 4] [[1], [0], [0], [0], [0]] = ([1, 2, 3, 4, 0], [0, 0, 0]) := by decide +kernel
/-- V22: mixed block lengths, equality in the sizing invariant. -/
theorem test_ola_mixed_blocks :
    runOla 2 [1, 2, 3] [[1, 1], [1], [1, 1]] = ([1, 3, 6, 6, 6], [5, 3]) := by decide +kernel
/-- V23: `-1` is 256 modulo 257. -/
theorem test_ola_cross_validation :
    runOla 3 [1, 2, 3, 4] [[1], [256, 2, 0], [3, 1]] = ([1, 1, 3, 5, 5, 15], [11, 15, 4]) ∧
    directTotal mod257 [1, 2, 3, 4] [[1], [256, 2, 0], [3, 1]] = olaTotal mod257 3 [1, 2, 3, 4] [[1], [256, 2, 0], [3, 1]] := by
  decide +kernel
/-- V27: `flush` does not clear; the next block still carries the old overlap. -/
theorem test_ola_flush_keeps : runOla 2 [1, 2, 3] [[1, 1], [0, 0]] = ([1, 3, 5, 3], [0, 0]) := by decide +kernel

/-! Commands: one step on a small state. -/

/-- Two channels, `h = [1, 2, 3]`, `B = 2`, `ORD = 2`, histories and overlaps that differ. -/
def smallSet : ConvSet where
  n := 3
  b := 2
  ord := 2
  hmem := [0x3F800000, 0x40000000, 0x40400000]
  spec := filterSpectrum num 2 [0x3F800000, 0x40000000, 0x40400000]
  chans :=
    [{ direct := { dly := [0x3F800000, 0x40000000, 0], cur := 2 }, ola := { ovl := [0x40A00000, 0x40400000] } },
     { direct := { dly := [0, 0, 0], cur := 0 }, ola := { ovl := [0x3F800000, 0x40000000] } }]

/-- An SCC of two channels with that set, the time-domain algorithm, and words on `RP_IN`. -/
def smallState (ws : List Word) : State :=
  { State.resetOf 2 with cset := some smallSet, alg := .timeDomain, rpIn := ws }

/-- The same with a build in progress and the real-time sequencer to move next. -/
def busyState (ws : List Word) : State :=
  { smallState ws with pend := some { op := .build, n := 1, b := 1, ord := 6, h := [0x3F800000] }, sched := [.rp] }

/-- The next state of one step, if there is one. -/
def next? (s : State) : Option State :=
  match step s with
  | .next t => some t
  | _ => none

/-- What a test looks at: the responses of both ports, `FAULT`, and both cursors. -/
def seen (s : State) : Option (List Word × List Word × BitVec 4 × Nat × Nat) :=
  (next? s).map fun t => (t.rpOut, t.cpOut, t.fault, t.ccRp, t.ccCp)

/-- R162, V41: flags byte 3 (IR loaded, TD) and 7 (the same inside a window). -/
theorem test_query :
    seen (smallState [0x10000000]) = some ([0x10030000], [], 0, 1, 0) ∧
    (next? (busyState [0x10000000])).map State.rpOut = some [0x10070000] := by decide +kernel
/-- R163, V40: `SELECT TD` with no IR loaded; the reserved bit faults. -/
theorem test_select :
    (next? ((State.resetOf 1).supply .rp [0x21000000])).map (fun t => (t.alg, t.rpOut)) =
      some (.timeDomain, [0x20000000]) ∧
    seen ((State.resetOf 1).supply .rp [0x22000000]) = some ([0x2C000000], [], 12, 1, 0) := by decide +kernel
/-- R164: `RESET ch=0 units=D` zeroes one delay line and leaves the overlap and the other channel. -/
theorem test_reset_direct :
    (next? (smallState [0x31000000])).map (fun t => (t.rpOut, t.cset.map ConvSet.chans)) =
      some ([0x30000000], some
        [{ direct := { dly := [0, 0, 0], cur := 0 }, ola := { ovl := [0x40A00000, 0x40400000] } },
         { direct := { dly := [0, 0, 0], cur := 0 }, ola := { ovl := [0x3F800000, 0x40000000] } }]) := by decide +kernel
/-- R164, R202: `RESET` skips before any build, and faults first on a channel that does not exist. -/
theorem test_reset_skip_and_channel :
    seen ((State.resetOf 1).supply .rp [0x33000000]) = some ([0x32000000], [], 0, 1, 0) ∧
    seen ((State.resetOf 1).supply .rp [0x33010000]) = some ([0x3C000000], [], 12, 1, 0) := by decide +kernel
/-- R165: `FLUSH ch=1` answers the overlap of channel 1. -/
theorem test_flush : seen (smallState [0x40010000]) = some ([0x40000002, 0x3F800000, 0x40000000], [], 0, 1, 0) := by
  decide +kernel
/-- V40: `FLUSH ch=1` with one channel faults, with two it is skipped before any build. -/
theorem test_flush_channel :
    seen ((State.resetOf 1).supply .rp [0x40010000]) = some ([0x4C000000], [], 12, 1, 0) ∧
    seen ((State.resetOf 2).supply .rp [0x40010000]) = some ([0x42000000], [], 0, 1, 0) := by decide +kernel
/-- R166, R112: one time-domain sample per channel: `1*3 + 2*2 + 3*1 = 10` and `2`. -/
theorem test_proc_time_domain :
    seen (smallState [0x50000001, 0x40400000, 0x40000000]) = some ([0x50000001, 0x41200000, 0x40000000], [], 0, 3, 0) := by
  decide +kernel
/-- P5, V40, V42: a block that is too long faults with the payload untaken; without a set, or inside a window, it is
skipped and discarded. -/
theorem test_proc_bad_length_and_skip :
    seen (smallState [0x50000003, 1, 2, 3, 4, 5, 6]) = some ([0x5B000000], [], 11, 1, 0) ∧
    seen ((State.resetOf 1).supply .rp [0x50000002, 1, 2]) = some ([0x52000000], [], 0, 3, 0) ∧
    seen (busyState [0x50000001, 1, 2]) = some ([0x51000000], [], 0, 3, 0) :=
  ⟨by decide +kernel, by decide +kernel, by decide +kernel⟩
/-- R168, P1: the begin step of `BUILD` holds the derived order 6 and takes six words. -/
theorem test_build_begin :
    (next? ((State.resetOf 1).supply .cp [0x80000004, 0x00000004, 0x3F800000, 0x3F000000, 0x3E800000, 0])).map
      (fun t => (t.pend, t.ccCp, t.cpOut)) =
      some (some { op := .build, n := 4, b := 4, ord := 6, h := [0x3F800000, 0x3F000000, 0x3E800000, 0] }, 6, []) := by
  decide +kernel
/-- V40: `BUILD` with bits of the order field faults after its second word; `N = 8194, B = 8192` would be `F_SIZE`. -/
theorem test_build_faults :
    seen ((State.resetOf 1).supply .cp [0x80000004, 0x00030004]) = some ([], [0x8C000000], 12, 0, 2) ∧
    seen ((State.resetOf 1).supply .cp [0x80000001, 0, 0x3F800000]) = some ([], [0x8D000000], 13, 0, 2) := by
  decide +kernel
/-- P3, V31: the begin step of `BUILDK` with the explicit order; the order 2 is too small for `N = 4, B = 4`. -/
theorem test_buildk_begin :
    (next? ((State.resetOf 1).supply .cp [0x90000003, 0x00020002, 0x3F800000, 0x40000000, 0x40400000])).map
      (fun t => t.pend.map Pending.ord) = some (some 2) ∧
    seen ((State.resetOf 1).supply .cp [0x90000004, 0x00020004, 0, 0, 0, 0]) = some ([], [0x99000000], 9, 0, 2) := by
  decide +kernel
/-- V40, V26: the commit of `BUILDK N=1 B=1 ord=0 [2]` answers `0x90000000` and loads the IR; P6: a zero IR faults. -/
theorem test_commit :
    (next? { State.resetOf 1 with pend := some { op := .buildk, n := 1, b := 1, ord := 0, h := [0x40000000] } }).map
      (fun t => (t.cpOut, t.irLoaded, t.rebuilding, t.fault)) = some ([0x90000000], true, false, 0) ∧
    (next? { State.resetOf 1 with pend := some { op := .buildk, n := 1, b := 1, ord := 0, h := [0] } }).map
      (fun t => (t.cpOut, t.irLoaded, t.rebuilding, t.fault)) = some ([0x9A000000], false, true, 10) := by decide +kernel

/-! No step. -/

/-- Why a state has no step, if it has none. -/
def stop? (s : State) : Option Fault :=
  match step s with
  | .fault r => some r
  | _ => none

/-- R172, U13, U14: over, stuck inside a command, halted. -/
theorem test_no_step :
    stop? (State.resetOf 1) = some .runOver ∧ stop? ((State.resetOf 1).supply .rp [0x50000002, 1]) = some .incompleteCommand ∧
    stop? { (State.resetOf 1).supply .rp [0x10000000] with fault := 11 } = some .halted := by decide +kernel

/-- The host's placing of a command: the first step after reset runs it. -/
theorem test_placed_command :
    seen (State.reset.withFetchWord 32 0x50000001) = some ([0x52000000], [], 0, 2, 0) ∧
    seen (State.reset.withFetchWord 32 0x80000000) = some ([], [0x88000000], 8, 0, 2) := by decide +kernel

end Sys2Proof.Tests
end

