-- ==== Sys2Proof/Tests/Witnesses.lean ====
section
/-! SUPPORT. For every obligation with hypotheses, a concrete state and operands that meet all of them together, at the
boundaries of their ranges where they have ranges. -/

namespace Sys2Proof.Tests

open Sys2Proof.Machine

/-! States the witnesses use. -/

/-- A set with `N = 1`, `B = 1`, order 0 and `h = [2]`: its spectrum is `h` itself (V26), so the invariant is evaluated. -/
def unitSet : ConvSet where
  n := 1
  b := 1
  ord := 0
  hmem := [0x40000000]
  spec := [(0x40000000, 0)]
  chans := [{ direct := { dly := [0], cur := 0 }, ola := { ovl := [] } }]

/-- One channel with that set and words on `RP_IN`. -/
def unitState (alg : Alg) (ws : List Word) : State :=
  { State.resetOf 1 with cset := some unitSet, alg := alg, rpIn := ws }

/-- A build in progress of the same IR. -/
def unitPending : Pending := { op := .buildk, n := 1, b := 1, ord := 0, h := [0x40000000] }

/-- A build in progress on one channel, nothing else supplied. -/
def commitState (pd : Pending) : State := { State.resetOf 1 with pend := some pd }

/-- The state meets the invariant, with a set. -/
theorem witness_inv (alg : Alg) (ws : List Word) : (unitState alg ws).Inv where
  nch := ⟨Nat.le_refl 1, by show 1 ≤ 256; decide⟩
  fault := .inl rfl
  cset cs h := by
    cases h
    exact {
      operands := { ir := by decide, bound := by decide, order := by decide, size := by decide }
      hmem := rfl
      specLength := rfl
      count := rfl
      channels := by intro ch h; cases List.mem_singleton.1 h; exact { dly := rfl, cur := by decide, ovl := rfl }
      spec := by decide +kernel
      energy := by decide +kernel }
  pend _ h := by cases h

/-- The state with a build in progress meets it too. -/
theorem witness_inv_pending : (commitState unitPending).Inv where
  nch := by decide
  fault := .inl rfl
  cset _ h := by cases h
  pend pd h := by
    cases h
    exact { operands := { ir := by decide, bound := by decide, order := by decide, size := by decide }, payload := rfl }

/-! Encoding. -/

theorem witness_DecodeInvertsEncode :
    Instr.query.wf = true ∧ (Instr.select .timeDomain).wf = true ∧ (Instr.reset true true 255).wf = true ∧
    (Instr.flush 0).wf = true ∧ (Instr.proc 65535).wf = true ∧ (Instr.build 0 65535).wf = true ∧
    (Instr.buildk 65535 65535 31).wf = true := by decide

theorem witness_EncodeInvertsDecode :
    decode .rp [0x5000FFFF#32, 7#32] = .command (.proc 65535) 1 ∧
    decode .cp [0x9000FFFF#32, 0x001FFFFF#32] = .command (.buildk 65535 65535 31) 2 := by decide

theorem witness_MatchMaskTableDecides :
    Opcode.reset.selects 0x33FF0000#32 = true ∧ Opcode.reset.port = .rp ∧
    decode .rp [0x33FF0001#32] = .illegal .reservedBit 3 1 := by decide

/-! The step. -/

theorem witness_StepRunsDecodedCommand :
    (unitState .timeDomain [0x50000001, 0]).moves .rp (unitState .timeDomain [0x50000001, 0]) ∧
    (unitState .timeDomain [0x50000001, 0]).fetch .rp = .command (.proc 1) 1 ∧
    ((State.resetOf 1).supply .cp [0x80000001, 1, 0]).moves .cp ((State.resetOf 1).supply .cp [0x80000001, 1, 0]) ∧
    ((State.resetOf 1).supply .cp [0x80000001, 1, 0]).pend = none ∧
    ((State.resetOf 1).supply .cp [0x80000001, 1, 0]).fetch .cp = .command (.build 1 1) 2 := by
  refine ⟨⟨rfl, by decide, .inl ⟨by decide, rfl⟩⟩, by decide, ⟨rfl, by decide, .inl ⟨by decide, rfl⟩⟩, rfl, by decide⟩

/-- The same where both sequencers have a step and the schedule names the real-time one. -/
theorem witness_StepRunsDecodedCommand_contended :
    (busyState [0x10000000]).moves .rp { busyState [0x10000000] with sched := [] } ∧
    (busyState [0x10000000]).fetch .rp = .command .query 1 :=
  ⟨⟨rfl, by decide, .inr ⟨by decide, rfl⟩⟩, by decide⟩

theorem witness_StepCommitsBuildInProgress :
    (commitState unitPending).moves .cp (commitState unitPending) ∧ (commitState unitPending).pend = some unitPending :=
  ⟨⟨rfl, by decide, .inl ⟨by decide, rfl⟩⟩, rfl⟩

theorem witness_IllegalRealTimeCommandFaults :
    ((State.resetOf 1).supply .rp [0x60000000]).moves .rp ((State.resetOf 1).supply .rp [0x60000000]) ∧
    ((State.resetOf 1).supply .rp [0x60000000]).rpIn = 0x60000000#32 :: [] ∧
    ((State.resetOf 1).supply .rp [0x60000000]).fetch .rp = .illegal .undefinedOpcode 6 1 :=
  ⟨⟨rfl, by decide, .inl ⟨by decide, rfl⟩⟩, rfl, by decide⟩

theorem witness_IllegalControlCommandFaults :
    ((State.resetOf 1).supply .cp [0x90000004, 0x00200004]).moves .cp
      ((State.resetOf 1).supply .cp [0x90000004, 0x00200004]) ∧
    ((State.resetOf 1).supply .cp [0x90000004, 0x00200004]).pend = none ∧
    ((State.resetOf 1).supply .cp [0x90000004, 0x00200004]).fetch .cp = .illegal .reservedBitW1 9 2 ∧
    ((State.resetOf 1).supply .cp [0x50000001]).moves .cp ((State.resetOf 1).supply .cp [0x50000001]) ∧
    ((State.resetOf 1).supply .cp [0x50000001]).fetch .cp = .illegal .wrongPort 5 1 :=
  ⟨⟨rfl, by decide, .inl ⟨by decide, rfl⟩⟩, rfl, by decide, ⟨rfl, by decide, .inl ⟨by decide, rfl⟩⟩, by decide⟩

theorem witness_HaltedMachineHasNoStep : ({ State.resetOf 1 with fault := 8#4 } : State).fault ≠ 0#4 := by decide

theorem witness_FaultEntryChangesNothingElse :
    (next? (unitState .timeDomain [0x50000002, 0, 0])).map (fun t => decide (t.fault ≠ 0#4)) = some true ∧
    (next? (commitState { unitPending with h := [0] })).map (fun t => decide (t.fault ≠ 0#4)) = some true := by
  decide +kernel

/-- Each of the three ends. -/
theorem witness_NoStepIsHaltedOverOrStuck :
    stop? (State.resetOf 256) = some .runOver ∧ stop? ((State.resetOf 1).supply .cp [0x80000001, 1]) = some .incompleteCommand ∧
    stop? { State.resetOf 1 with fault := 13 } = some .halted := by decide +kernel

/-- A whole `PROC` and one whose last payload word is missing; an illegal word; a build in progress. -/
theorem witness_SequencerHasStepOnWholeCommand :
    ((State.resetOf 2).supply .rp [0x50000001, 1, 2]).canStep .rp = true ∧
    ((State.resetOf 2).supply .rp [0x50000001, 1]).canStep .rp = false ∧
    ((State.resetOf 2).supply .rp [0xFFFFFFFF]).canStep .rp = true ∧ (commitState unitPending).canStep .cp = true := by
  decide

theorem witness_ScheduleChoosesSequencer :
    (busyState [0x10000000]).fault = 0#4 ∧ (busyState [0x10000000]).canStep .rp = true ∧
    (busyState [0x10000000]).canStep .cp = true ∧ (busyState [0x10000000]).sched = .rp :: [] ∧
    ({ busyState [0x10000000] with sched := [] } : State).canStep .rp = true ∧
    ({ busyState [0x10000000] with sched := [] } : State).canStep .cp = true := by decide

theorem witness_StreamsMoveForward : (next? (unitState .timeDomain [0x50000001, 0, 1, 2])).isSome = true := by decide +kernel

/-! Real-time commands. -/

theorem witness_QueryAnswersFlags : (busyState []).fault = 0#4 := rfl

theorem witness_SelectWritesAlg : (busyState []).fault = 0#4 := rfl

theorem witness_ResetZeroesChosenUnits :
    (smallState []).fault = 0#4 ∧ (smallState []).pend = none ∧ (smallState []).cset = some smallSet ∧
    1 < (smallState []).nch ∧
    smallSet.chans[1]? = some { direct := { dly := [0, 0, 0], cur := 0 }, ola := { ovl := [0x3F800000, 0x40000000] } } :=
  ⟨rfl, rfl, rfl, by decide, rfl⟩

theorem witness_FlushReturnsOverlap :
    (smallState []).fault = 0#4 ∧ (smallState []).pend = none ∧ (smallState []).cset = some smallSet ∧
    1 < (smallState []).nch ∧
    smallSet.chans[1]? = some { direct := { dly := [0, 0, 0], cur := 0 }, ola := { ovl := [0x3F800000, 0x40000000] } } :=
  ⟨rfl, rfl, rfl, by decide, rfl⟩

/-- `m = 1` and `m = B = 2`, with exactly the payload. -/
theorem witness_ProcRunsDirectConvolvers :
    (smallState [1, 2, 3, 4]).fault = 0#4 ∧ (smallState [1, 2, 3, 4]).pend = none ∧
    (smallState [1, 2, 3, 4]).cset = some smallSet ∧ (smallState [1, 2, 3, 4]).alg = .timeDomain ∧
    1 ≤ 1 ∧ 2 ≤ smallSet.b ∧ (smallState [1, 2, 3, 4]).nch * 2 ≤ (smallState [1, 2, 3, 4]).rpIn.length :=
  ⟨rfl, rfl, rfl, rfl, by decide, by decide, by decide⟩

theorem witness_ProcRunsOlaConvolvers :
    (unitState .frequencyDomain [1]).fault = 0#4 ∧ (unitState .frequencyDomain [1]).pend = none ∧
    (unitState .frequencyDomain [1]).cset = some unitSet ∧ (unitState .frequencyDomain [1]).alg = .frequencyDomain ∧
    1 ≤ 1 ∧ 1 ≤ unitSet.b ∧ (unitState .frequencyDomain [1]).nch * 1 ≤ (unitState .frequencyDomain [1]).rpIn.length :=
  ⟨rfl, rfl, rfl, rfl, by decide, by decide, by decide⟩

/-- `m = 0` with an empty stream and `m = B + 1`; a window, and no set. -/
theorem witness_ProcBadLengthFaults :
    (unitState .frequencyDomain []).fault = 0#4 ∧ (unitState .frequencyDomain []).pend = none ∧
    (unitState .frequencyDomain []).cset = some unitSet ∧ unitSet.b < 2 ∧
    (unitState .frequencyDomain []).nch * 0 ≤ (unitState .frequencyDomain []).rpIn.length ∧
    (unitState .frequencyDomain [1, 2]).nch * 2 ≤ (unitState .frequencyDomain [1, 2]).rpIn.length ∧
    (commitState unitPending).fault = 0#4 ∧ (commitState unitPending).pend ≠ none ∧
    (State.resetOf 1).cset = none ∧ (State.resetOf 1).nch * 0 ≤ (State.resetOf 1).rpIn.length :=
  ⟨rfl, rfl, rfl, by decide, by decide, by decide, rfl, by decide, rfl, by decide⟩

theorem witness_ChannelOutOfRangeFaults : (State.resetOf 1).fault = 0#4 ∧ (State.resetOf 1).nch ≤ 1 :=
  ⟨rfl, by decide⟩

theorem witness_WindowSkipsRealTimeCommands :
    (commitState unitPending).fault = 0#4 ∧ (commitState unitPending).pend = some unitPending ∧
    0 < (commitState unitPending).nch ∧ (commitState unitPending).nch * 0 ≤ (commitState unitPending).rpIn.length :=
  ⟨rfl, rfl, by decide, by decide⟩

theorem witness_NoIrSkipsRealTimeCommands :
    (State.resetOf 256).fault = 0#4 ∧ (State.resetOf 256).pend = none ∧ (State.resetOf 256).cset = none ∧
    255 < (State.resetOf 256).nch ∧ (State.resetOf 256).nch * 0 ≤ (State.resetOf 256).rpIn.length :=
  ⟨rfl, rfl, rfl, by decide, by decide⟩

theorem witness_CommandWaitsForItsPayload :
    (State.resetOf 1).fault = 0#4 ∧ (State.resetOf 1).rpIn.length < (State.resetOf 1).nch * 1 ∧
    (State.resetOf 1).pend = none ∧ (State.resetOf 1).cpIn.length < 1 := ⟨rfl, by decide, rfl, by decide⟩

theorem witness_RealTimeCommandSendsOneResponse :
    (Instr.proc 2).port = .rp ∧
    exec (.proc 2) (unitState .timeDomain [0, 0]) =
      .next ((unitState .timeDomain [0, 0]).raiseFault .rp 5#4 .fBadLen) ∧
    (unitState .timeDomain [0]).Inv ∧
    exec (.proc 1) (unitState .timeDomain [0]) = .next (procBlock 1 unitSet (unitState .timeDomain [0])) ∧
    exec (.flush 0) (unitState .timeDomain [0]) = .next ((unitState .timeDomain [0]).answer .rp .flush 0#8 0 []) :=
  ⟨rfl, rfl, witness_inv _ _, rfl, rfl⟩

theorem witness_ResponsesHaveTheirLength :
    (unitState .timeDomain [0x3F800000]).Inv ∧ (unitState .timeDomain [0x3F800000]).fault = 0#4 ∧
    (unitState .timeDomain [0x3F800000]).pend = none ∧ (unitState .timeDomain [0x3F800000]).cset = some unitSet ∧
    1 ≤ 1 ∧ 1 ≤ unitSet.b ∧ 0 < (unitState .timeDomain [0x3F800000]).nch ∧
    exec (.proc 1) (unitState .timeDomain [0x3F800000]) =
      .next (procBlock 1 unitSet (unitState .timeDomain [0x3F800000])) ∧
    exec (.flush 0) (unitState .timeDomain [0x3F800000]) =
      .next ((unitState .timeDomain [0x3F800000]).answer .rp .flush 0#8 0 []) :=
  ⟨witness_inv _ _, rfl, rfl, rfl, by decide, by decide, by decide, rfl, rfl⟩

/-! Builds. -/

/-- The largest IR and the largest bound that fit. -/
theorem witness_BuildBegins :
    (State.resetOf 1).fault = 0#4 ∧ (State.resetOf 1).pend = none ∧ 1 ≤ 1 ∧ 16384 + 1 - 1 ≤ 16384 ∧
    1 ≤ ((State.resetOf 1).supply .cp [0x3F800000]).cpIn.length := ⟨rfl, rfl, by decide, by decide, by decide⟩

theorem witness_BuildkBegins :
    ((State.resetOf 1).supply .cp [0x3F800000]).fault = 0#4 ∧ ((State.resetOf 1).supply .cp [0x3F800000]).pend = none ∧
    1 ≤ 1 ∧ 14 ≤ 14 ∧ 16384 + 1 - 1 ≤ 2 ^ 14 ∧ 1 + 1 - 1 ≤ 2 ^ 0 ∧
    1 ≤ ((State.resetOf 1).supply .cp [0x3F800000]).cpIn.length := by decide

/-- One operand tuple for each branch, at its boundary: `N = 0`, `B = 0`, `ORD = 15`, one point too many. -/
theorem witness_BuildFaultsInOrder :
    ((State.resetOf 1).supply .cp [1]).fault = 0#4 ∧ ((State.resetOf 1).supply .cp [1]).pend = none ∧
    1 ≤ ((State.resetOf 1).supply .cp [1]).cpIn.length ∧
    (if (1 : Nat) = 0 then some 8#4 else if (0 : Nat) = 0 then some 13#4 else if 16384 < 0 + 1 - 1 then some 9#4
      else none) = some 13#4 ∧
    (if (1 : Nat) = 0 then some 8#4 else if (16385 : Nat) = 0 then some 13#4 else if 16384 < 16385 + 1 - 1 then some 9#4
      else none) = some 9#4 ∧
    (if (0 : Nat) = 0 then some 8#4 else if (0 : Nat) = 0 ∨ 14 < 15 then some 13#4
      else if 2 ^ 15 < 0 + 0 - 1 then some 9#4 else none) = some 8#4 ∧
    (if (1 : Nat) = 0 then some 8#4 else if (1 : Nat) = 0 ∨ 14 < 15 then some 13#4
      else if 2 ^ 15 < 1 + 1 - 1 then some 9#4 else none) = some 13#4 ∧
    (if (1 : Nat) = 0 then some 8#4 else if (2 : Nat) = 0 ∨ 14 < 0 then some 13#4
      else if 2 ^ 0 < 2 + 1 - 1 then some 9#4 else none) = some 9#4 := by decide

theorem witness_SecondBuildWaits :
    (commitState unitPending).fault = 0#4 ∧ (commitState unitPending).pend = some unitPending := ⟨rfl, rfl⟩

/-- Both outcomes of the energy test. -/
theorem witness_CommitReplacesWholeSet :
    9#4 = (if unitPending.op = .build then 8#4 else 9#4) ∧
    f32IsZero (spectralEnergy num (filterSpectrum num 0 [0])) = true ∧
    f32IsZero (spectralEnergy num (filterSpectrum num 0 [0x40000000])) = false := by decide +kernel

/-! Invariants and frames. -/

theorem witness_ResetMeetsInvariant : (State.resetOf 256).nch = 256 ∧ 1 ≤ 256 ∧ 256 ≤ 256 := by decide

theorem witness_StepKeepsInvariant :
    (unitState .timeDomain [0x50000001, 0x3F800000]).Inv ∧
    (next? (unitState .timeDomain [0x50000001, 0x3F800000])).isSome = true ∧
    (commitState unitPending).Inv ∧ (next? (commitState unitPending)).isSome = true :=
  ⟨witness_inv _ _, by decide +kernel, witness_inv_pending, by decide +kernel⟩

theorem witness_OnlySelectWritesAlg :
    (next? (unitState .timeDomain [0x20000000])).map State.alg = some .frequencyDomain ∧
    (unitState .timeDomain [0x20000000]).alg = .timeDomain := by decide +kernel

theorem witness_OnlyCommitReplacesIr :
    (next? (unitState .timeDomain [0x50000001, 0])).isSome = true ∧ (unitState .timeDomain [0x50000001, 0]).pend = none ∧
    (unitState .timeDomain [0x50000001, 0]).cset = some unitSet ∧
    (next? ((State.resetOf 1).supply .rp [0x50000001, 0])).isSome = true ∧
    ((State.resetOf 1).supply .rp [0x50000001, 0]).cset = none := by decide +kernel

theorem witness_WindowHidesTheSet :
    (Instr.proc 1).port = .rp ∧ (busyState [1, 2]).pend = some { op := .build, n := 1, b := 1, ord := 6, h := [0x3F800000] } ∧
    (some unitSet).isSome = (busyState [1, 2]).cset.isSome ∧ some unitSet ≠ (busyState [1, 2]).cset ∧
    exec (.proc 1) (busyState [1, 2]) = .next ((busyState [1, 2]).skip .proc 2 .skipBusy) :=
  ⟨rfl, rfl, rfl, by decide, rfl⟩

theorem witness_PortsKeepApart :
    Instr.query.port = .rp ∧ exec .query (busyState []) = .next ((busyState []).answer .rp .query 7#8 0 []) ∧
    (Instr.build 1 1).port = .cp ∧
    exec (.build 1 1) ((smallState []).supply .cp [0x3F800000]) =
      .next (buildBegin .build 1 1 0 ((smallState []).supply .cp [0x3F800000])) := ⟨rfl, rfl, rfl, rfl⟩

/-- One state for each algorithm. -/
theorem witness_UnselectedConvolverUntouched :
    exec (.proc 1) (unitState .timeDomain [0]) = .next (procBlock 1 unitSet (unitState .timeDomain [0])) ∧
    exec (.proc 1) (unitState .frequencyDomain [0]) = .next (procBlock 1 unitSet (unitState .frequencyDomain [0])) ∧
    (unitState .timeDomain [0]).cset = some unitSet ∧ (unitState .frequencyDomain [0]).cset = some unitSet ∧
    (unitState .timeDomain [0]).alg = .timeDomain ∧ (unitState .frequencyDomain [0]).alg = .frequencyDomain :=
  ⟨rfl, rfl, rfl, rfl, rfl, rfl⟩

/-- `smallSet` with a different channel 1. -/
def otherSet : ConvSet :=
  let other : Channel := { direct := { dly := [1, 2, 3], cur := 1 }, ola := { ovl := [4, 5] } }
  { smallSet with chans := smallSet.chans.set 1 other }

/-- Two machines that differ in channel 1 alone, with the same block for channel 0. -/
theorem witness_ChannelsAreIndependent :
    exec (.proc 1) (smallState [7, 8]) = .next (procBlock 1 smallSet (smallState [7, 8])) ∧
    exec (.proc 1) { smallState [7, 9] with cset := some otherSet } =
      .next (procBlock 1 otherSet { smallState [7, 9] with cset := some otherSet }) ∧
    smallSet.chans ≠ otherSet.chans ∧ smallSet.chans[0]? = otherSet.chans[0]? ∧
    smallSet.n = otherSet.n ∧ smallSet.b = otherSet.b ∧ smallSet.ord = otherSet.ord ∧ smallSet.hmem = otherSet.hmem ∧
    smallSet.spec = otherSet.spec ∧
    channelBlock 1 0 ((smallState [7, 8]).rpIn.take 2) = channelBlock 1 0 ((smallState [7, 9]).rpIn.take 2) :=
  ⟨rfl, rfl, by decide, rfl, rfl, rfl, rfl, rfl, rfl, rfl⟩

/-! Samples and units. -/

theorem witness_CeilLogIsLeast : 1 ≤ 1 ∧ 1 ≤ 2 ^ 0 ∧ 16385 ≤ 2 ^ 15 := by decide

theorem witness_DelayLineHoldsLatestSamples :
    1 ≤ 3 ∧ (⟨[0, 0, 0], 0⟩ : Direct Nat) = directConstruct mod257 3 ∧
    (⟨[0, 0, 0], 0⟩ : Direct Nat) = directReset mod257 3 ⟨[4, 5, 3], 2⟩ ∧ (⟨[4, 5, 3], 2⟩ : Direct Nat) =
      (directBlock mod257 [1, 2, 3] 3 ⟨[0, 0, 0], 0⟩ [1, 2, 3, 4, 5]).2 := by decide +kernel

/-- The last sample of the last block, after a `reset`. -/
theorem witness_DirectComputesConvolution :
    1 ≤ ([1, 2] : List ℝ).length ∧ 2 < ([[1, 2], [3]] : List (List ℝ)).flatten.length ∧
    ∃ old : Direct ℝ, directConstruct ideal 2 = directReset ideal 2 old := ⟨by simp, by simp, ⟨[5, 6], 1⟩, rfl⟩

/-- Among the samples a subnormal, the largest finite value and a negative zero. -/
theorem witness_DirectImpulseIdentity :
    1 ≤ [0x00000001#32, 0x7F7FFFFF#32, 0x80000000#32, 0xC0000000#32].length ∧
    [0x00000001#32, 0x7F7FFFFF#32, 0x80000000#32, 0xC0000000#32].all f32Finite = true := by decide +kernel

theorem witness_DirectSilence :
    1 ≤ [0x80000000#32, 0xFF7FFFFF#32].length ∧ [0x80000000#32, 0xFF7FFFFF#32].all f32Finite = true := by decide +kernel

/-- A sum and a product halfway between two samples, and the other of the two samples (`1 + 2^-24`; `3 * 2^-150`). -/
theorem witness_RoundingIsToNearestEven :
    f32Finite (f32Add 0x3F800000 0x33800000) = true ∧ f32Finite 0x3F800001 = true ∧
    |sampleUnits (f32Add 0x3F800000 0x33800000) - (sampleUnits 0x3F800000 + sampleUnits 0x33800000)| =
      |sampleUnits 0x3F800001 - (sampleUnits 0x3F800000 + sampleUnits 0x33800000)| ∧
    sampleUnits 0x3F800001 ≠ sampleUnits (f32Add 0x3F800000 0x33800000) ∧
    f32Finite (f32Mul 0x00000003 0x3F000000) = true ∧
    |sampleUnits (f32Mul 0x00000003 0x3F000000) * 2 ^ 149 - sampleUnits 0x00000003 * sampleUnits 0x3F000000| =
      |sampleUnits 0x00000001 * 2 ^ 149 - sampleUnits 0x00000003 * sampleUnits 0x3F000000| ∧
    sampleUnits 0x00000001 ≠ sampleUnits (f32Mul 0x00000003 0x3F000000) := by decide +kernel

theorem witness_NanPropagates : f32IsNan 0xFF800001#32 = true ∧ f32IsZero 0x80000000#32 = true := by decide

theorem witness_InverseUndoesForward : ([(1, 2), (3, 4)] : List (ℝ × ℝ)).length = 2 ^ 1 := rfl

theorem witness_TransformEnergyIsParseval : ([(1, 2)] : List (ℝ × ℝ)).length = 2 ^ 0 := rfl

theorem witness_CircularConvolution : ([1, 2] : List ℝ).length = 2 ^ 1 ∧ ([3, 4] : List ℝ).length = 2 ^ 1 := ⟨rfl, rfl⟩

/-- Equality in the size. -/
theorem witness_BlockConvolvesLinearly :
    1 ≤ ([1, 2, 3] : List ℝ).length ∧ ([4, 5] : List ℝ).length + ([1, 2, 3] : List ℝ).length - 1 ≤ 2 ^ 2 := by
  simp

/-- Blocks of length 1 and `B`, equality in the size. -/
theorem witness_OverlapHoldsUnemittedTail :
    1 ≤ ([1, 2, 3] : List ℝ).length ∧ 2 + ([1, 2, 3] : List ℝ).length - 1 ≤ 2 ^ 2 ∧
    (∀ x ∈ ([[4], [5, 6]] : List (List ℝ)), 1 ≤ x.length ∧ x.length ≤ 2) ∧
    ∃ old : Ola ℝ, olaConstruct ideal 3 = olaReset ideal 3 old := ⟨by simp, by simp, by simp, ⟨[1, 2]⟩, rfl⟩

theorem witness_ConvolversAgree :
    1 ≤ ([7] : List ℝ).length ∧ 1 + ([7] : List ℝ).length - 1 ≤ 2 ^ 0 ∧
    ∀ x ∈ ([[4], [5]] : List (List ℝ)), 1 ≤ x.length ∧ x.length ≤ 1 := by
  simp

theorem witness_OverlapAddEquations :
    olaBlock mod257 3 2 (filterSpectrum mod257 2 [1, 2, 3]) { ovl := [5, 3] } [1, 1] = ([6, 6], { ovl := [5, 3] }) := by
  decide +kernel

/-- At order 0, where the transform is known: a block of one finite sample is ordinary, an infinity is not. -/
theorem witness_NumBlockFollowsRuleOrIsFree :
    (∀ w : Sample, w.extractLsb' 23 8 ≠ 255#8 ↔ w.extractLsb' 23 8 ≠ 255#8) ∧
    num.fwd 0 (padBlock num 0 [0x3F800000]) = [(0x3F800000, 0)] ∧
    (List.zipWith (complexMul num) [(0x3F800000, 0)] [(0x40000000, 0)]) = [(0x40000000, 0)] ∧
    num.inv 0 [(0x40000000, 0)] = [(0x40000000, 0)] ∧
    olaBlock num 1 0 [(0x40000000, 0)] { ovl := [] } [0x3F800000] = ([0x40000000], { ovl := [] }) ∧
    (0x3F800000#32).extractLsb' 23 8 ≠ 255#8 ∧ (0x40000000#32).extractLsb' 23 8 ≠ 255#8 ∧
    (0#32).extractLsb' 23 8 ≠ 255#8 ∧ (0x7F800000#32).extractLsb' 23 8 = 255#8 :=
  ⟨fun _ => Iff.rfl, by decide +kernel⟩

/-- A transform pair that gives `+0` everywhere keeps zeros zero. -/
theorem witness_keeps_zero : XformKeepsZero (numWith (fun _ _ _ => (0#32, 0#32)) fun _ _ _ => (0#32, 0#32)) := by
  have t : ∀ (ord : Nat) (a : List Cplx), a.all cplxIsZero = true →
      (transformOf (fun _ _ _ => (0#32, 0#32)) ord a).all cplxIsZero = true := by
    intro ord a h
    unfold transformOf
    split
    · exact List.all_eq_true.2 fun z hz => List.all_eq_true.1 h z (List.mem_of_mem_take hz)
    · simp [cplxIsZero, f32IsZero]
  exact fun ord _ a _ h => ⟨t ord a h, t ord a h⟩

theorem witness_OlaSilence :
    XformKeepsZero (numWith (fun _ _ _ => (0#32, 0#32)) fun _ _ _ => (0#32, 0#32)) ∧ 1 ≤ 14 ∧
    [(0x7F7FFFFF#32, 0#32), (0x80000000#32, 1#32)].length = 2 ^ 1 ∧
    [(0x7F7FFFFF#32, 0#32), (0x80000000#32, 1#32)].all cplxFinite = true ∧ 1 ≤ 2 ∧ 1 + 2 - 1 ≤ 2 ^ 1 :=
  ⟨witness_keeps_zero, by decide, rfl, by decide, by decide, by decide⟩

/-! The tolerance property of `XFORM` says something: a transform that yields NaN does not have it, for any tolerance. -/

/-- A transform pair that yields NaN everywhere. -/
def nanPair : Arith Sample := numWith (fun _ _ _ => (0x7FC00000#32, 0x7FC00000#32)) fun _ _ _ => (0x7FC00000#32, 0x7FC00000#32)

/-- A silent stream and a silent IR of one sample at order 1 are in range in the ideal instance. -/
theorem silence_in_range : IdealInRange 1 [0] [[0]] := by
  have z : ∀ k, idealSpectrumAt 1 [0] k = 0 := by
    intro k
    simp [idealSpectrumAt, idealFwdAt, padBlock, ideal, toComplex, Finset.sum_range_succ, show (⟨0, 0⟩ : ℂ) = 0 from rfl]
  have m : (0 : ℝ) < maxFinite := by norm_num [maxFinite]
  refine ⟨fun k _ => by simpa [z] using m, ?_, ?_, ?_⟩
  · intro x hx k _; cases List.mem_singleton.1 hx; simpa [z] using m
  · intro x hx k _; cases List.mem_singleton.1 hx; simpa [z] using m
  · intro j hj y hy
    have : y = 0 := by
      have hj : j ≤ 1 := hj
      interval_cases j <;>
        simp_all [directTotal, directBlock, directSample, directDot, directConstruct, ideal, tapIndex]
    simpa [this] using m

theorem test_tolerance_refuses_nan (t : ℝ) : ¬ XformTol nanPair t := by
  intro h
  have hz : ([0#32].map sampleReal) = [0] := by simp [sampleReal, floatVal, expBits, fracBits, signBit, signedMag]
  have := (h 1 1 [0#32] [[0#32]] (fun _ _ => 0x7FC00000#32) { ir := by decide, bound := by decide, order := by decide, size := by decide }
    (by simp) (by decide +kernel) (by intro x hx; cases List.mem_singleton.1 hx; decide +kernel)
    (by simpa [hz] using silence_in_range) (by decide +kernel)).1
  exact absurd this (by decide +kernel)

end Sys2Proof.Tests
end

section
/-! The reset state (R220, R35) and the invariant of R32: no set, no build in progress, no fault. -/

namespace Sys2Proof.Machine

@[simp] theorem State.resetOf_nch (nch : Nat) : (State.resetOf nch).nch = nch := rfl
@[simp] theorem State.resetOf_fault (nch : Nat) : (State.resetOf nch).fault = 0#4 := rfl
@[simp] theorem State.resetOf_cset (nch : Nat) : (State.resetOf nch).cset = none := rfl
@[simp] theorem State.resetOf_pend (nch : Nat) : (State.resetOf nch).pend = none := rfl

/-- R32 binds only arrays that exist (R37), so without a set and a build in progress it is the ranges of `NCH` and
`FAULT` alone. -/
theorem State.inv_of_no_set_no_pend {s : State} (hnch : 1 ≤ s.nch ∧ s.nch ≤ Config.nchMax)
    (hfault : legalFault s.fault) (hcset : s.cset = none) (hpend : s.pend = none) : s.Inv where
  nch := hnch
  fault := hfault
  cset cs h := by simp [hcset] at h
  pend pd h := by simp [hpend] at h

/-- The range of the channel count (R8) is all the invariant asks of a reset state. -/
theorem State.resetOf_inv_iff (nch : Nat) : (State.resetOf nch).Inv ↔ 1 ≤ nch ∧ nch ≤ Config.nchMax where
  mp h := h.nch
  mpr h := State.inv_of_no_set_no_pend h (.inl (State.resetOf_fault nch)) (State.resetOf_cset nch)
    (State.resetOf_pend nch)

/-- The channel count of the interface's reset state (log 1) is a legal one. -/
theorem resetNch_legal : 1 ≤ Config.resetNch ∧ Config.resetNch ≤ Config.nchMax := by decide

/-- Settles O33: a reset state meets the invariant exactly if its channel count is legal, and the interface's count is. -/
theorem resetMeetsInvariant : Obligations.ResetMeetsInvariant := by
  constructor
  · intro nch hlow hhigh
    exact (State.resetOf_inv_iff nch).2 ⟨hlow, hhigh⟩
  · exact (State.resetOf_inv_iff Config.resetNch).2 resetNch_legal

end Sys2Proof.Machine
end

section
/-! What each kind of command can do to the state, said once (R160, R162 to R169): the decoder's promises to the
sequencer, the outcomes of a real-time command, and the outcomes of the begin step of a build. -/

namespace Sys2Proof.Machine

/-! The decoder (R77, R79, R83). -/

theorem decodeRealTime_port (op : Opcode) (w : Word) : (decodeRealTime op w).port = .rp := by
  cases op <;> rfl

/-- A build has two header words; a stream that gives one holds both. -/
theorem decodeBuild_command {op : Opcode} {w : Word} {rest : List Word} {i : Instr} {k : Nat}
    (h : decodeBuild op w rest = .command i k) : i.port = .cp ∧ k = 2 ∧ 1 ≤ rest.length := by
  cases rest with
  | nil => simp [decodeBuild] at h
  | cons w1 ws =>
    simp only [decodeBuild] at h
    split at h
    · obtain ⟨rfl, rfl⟩ := Decoded.command.inj h
      refine ⟨?_, rfl, by simp⟩
      split <;> rfl
    · simp at h

theorem decodeBuild_illegal {op : Opcode} {w : Word} {rest : List Word} {why : Illegal} {rop : BitVec 4} {k : Nat}
    (h : decodeBuild op w rest = .illegal why rop k) : k ≤ rest.length + 1 := by
  cases rest with
  | nil => simp [decodeBuild] at h
  | cons w1 ws =>
    simp only [decodeBuild] at h
    split at h
    · simp at h
    · obtain ⟨-, -, rfl⟩ := Decoded.illegal.inj h
      simp

/-- A decoded command is one of the stream's own port, and its header words stand on the stream. -/
theorem decode_command {p : Port} {ws : List Word} {i : Instr} {k : Nat} (h : decode p ws = .command i k) :
    i.port = p ∧ k ≤ ws.length ∧ (p = .rp → k = 1) := by
  unfold decode at h
  split at h
  · simp at h
  · split at h
    · simp at h
    · split_ifs at h with hport hclear hrp
      · obtain ⟨rfl, rfl⟩ := Decoded.command.inj h
        exact ⟨by rw [decodeRealTime_port, hrp], by simp, fun _ => rfl⟩
      · obtain ⟨hi, rfl, hlen⟩ := decodeBuild_command h
        have hp : p = .cp := by
          cases p with
          | rp => exact absurd rfl hrp
          | cp => rfl
        exact ⟨by rw [hi, hp], by simpa using hlen, fun h' => absurd h' hrp⟩

/-- The words of an illegal command stand on the stream. -/
theorem decode_illegal_taken_le {p : Port} {ws : List Word} {why : Illegal} {rop : BitVec 4} {k : Nat}
    (h : decode p ws = .illegal why rop k) : k ≤ ws.length := by
  unfold decode at h
  split at h
  · simp at h
  · split at h
    · obtain ⟨-, -, rfl⟩ := Decoded.illegal.inj h
      simp
    · split_ifs at h
      · exact decodeBuild_illegal h
      all_goals
        obtain ⟨-, -, rfl⟩ := Decoded.illegal.inj h
        simp

/-! The fields after a block of `PROC` (R166). -/

@[simp] theorem procBlock_fault (m : Nat) (cs : ConvSet) (s : State) : (procBlock m cs s).fault = s.fault := rfl
@[simp] theorem procBlock_alg (m : Nat) (cs : ConvSet) (s : State) : (procBlock m cs s).alg = s.alg := rfl
@[simp] theorem procBlock_pend (m : Nat) (cs : ConvSet) (s : State) : (procBlock m cs s).pend = s.pend := rfl
@[simp] theorem procBlock_nch (m : Nat) (cs : ConvSet) (s : State) : (procBlock m cs s).nch = s.nch := rfl
@[simp] theorem procBlock_ccCp (m : Nat) (cs : ConvSet) (s : State) : (procBlock m cs s).ccCp = s.ccCp := rfl
@[simp] theorem procBlock_cpIn (m : Nat) (cs : ConvSet) (s : State) : (procBlock m cs s).cpIn = s.cpIn := rfl
@[simp] theorem procBlock_cpOut (m : Nat) (cs : ConvSet) (s : State) : (procBlock m cs s).cpOut = s.cpOut := rfl

/-- The channels a `PROC` leaves behind. -/
def ConvSet.chansAfterProc (alg : Alg) (draw m : Nat) (payload : List Word) (cs : ConvSet) : List Channel :=
  (cs.procAll alg draw m payload).map Prod.snd

@[simp] theorem procBlock_cset (m : Nat) (cs : ConvSet) (s : State) :
    (procBlock m cs s).cset =
      some { cs with chans := cs.chansAfterProc s.alg s.draws m (s.rpIn.take (s.nch * m)) } := rfl

theorem procBlock_rpOut (m : Nat) (cs : ConvSet) (s : State) :
    (procBlock m cs s).rpOut = s.rpOut ++ responseWord (opcodeBits .proc) statusOk 0#8 (BitVec.ofNat 16 m) ::
      ((cs.procAll s.alg s.draws m (s.rpIn.take (s.nch * m))).map Prod.fst).flatten := rfl

/-! Real-time commands (R162 to R166, R195 to R201). -/

/-- What a real-time command that runs can do: its own effect, a fault (R78, R195), or a skip (R199). -/
inductive RealTimeEffect (s : State) : Instr → State → Prop
  | query : RealTimeEffect s .query (s.answer .rp .query (queryInfo s) 0 [])
  | select (a : Alg) : RealTimeEffect s (.select a) ({ s with alg := a }.answer .rp .select 0#8 0 [])
  | reset (d o : Bool) (c : Nat) (cs : ConvSet) (hset : s.cset = some cs) :
      RealTimeEffect s (.reset d o c) ((s.withSet (cs.resetChannel d o c)).answer .rp .reset 0#8 0 [])
  | flush (c : Nat) (cs : ConvSet) (hset : s.cset = some cs) (hch : c < s.nch) :
      RealTimeEffect s (.flush c) (s.answer .rp .flush 0#8 (cs.n - 1) (cs.flushChannel c))
  | proc (m : Nat) (cs : ConvSet) (hset : s.cset = some cs) (hm : m ≤ cs.b) :
      RealTimeEffect s (.proc m) (procBlock m cs s)
  | fault (i : Instr) (f : FaultCode) (hf : f = .fIllegalCmd ∨ f = .fBadLen) :
      RealTimeEffect s i (s.raiseFault .rp (opcodeBits i.opcode) f)
  | skip (i : Instr) (k : SkipCode) :
      RealTimeEffect s i (s.skip i.opcode (payloadWords s.nch i) k)

/-- A command under the try-lock is a skip, unless its body on the set has an effect of the command. -/
theorem RealTimeEffect.of_trylock {s : State} {i : Instr} {body : ConvSet → State}
    (hbody : ∀ cs, s.cset = some cs → RealTimeEffect s i (body cs)) :
    RealTimeEffect s i (s.trylock i.opcode (payloadWords s.nch i) body) := by
  rcases trylock_cases i.opcode (payloadWords s.nch i) s body with ⟨-, h⟩ | ⟨-, -, h⟩ | ⟨-, cs, hset, h⟩
  · exact h ▸ .skip i .skipBusy
  · exact h ▸ .skip i .skipNoIr
  · exact h ▸ hbody cs hset

theorem resetEffect_realTimeEffect (d o : Bool) (c : Nat) (s : State) :
    RealTimeEffect s (.reset d o c) (resetEffect d o c s) := by
  unfold resetEffect
  split
  · exact .fault (.reset d o c) .fIllegalCmd (.inl rfl)
  · exact .of_trylock (i := .reset d o c) fun cs hset => .reset d o c cs hset

theorem flushEffect_realTimeEffect (c : Nat) (s : State) : RealTimeEffect s (.flush c) (flushEffect c s) := by
  unfold flushEffect
  split
  · exact .fault (.flush c) .fIllegalCmd (.inl rfl)
  · exact .of_trylock (i := .flush c) fun cs hset => .flush c cs hset (by omega)

theorem procEffect_realTimeEffect (m : Nat) (s : State) : RealTimeEffect s (.proc m) (procEffect m s) := by
  unfold procEffect
  refine .of_trylock (i := .proc m) fun cs hset => ?_
  split
  · exact .fault (.proc m) .fBadLen (.inr rfl)
  · exact .proc m cs hset (by omega)

/-- The effect of a real-time command, its gate passed; nothing for a build. -/
def realTimeBody (i : Instr) (s : State) : State :=
  match i with
  | .query => s.answer .rp .query (queryInfo s) 0 []
  | .select a => { s with alg := a }.answer .rp .select 0#8 0 []
  | .reset d o c => resetEffect d o c s
  | .flush c => flushEffect c s
  | .proc m => procEffect m s
  | .build _ _ | .buildk _ _ _ => s

/-- Every real-time command is its effect behind the one gate, which asks for its payload (R160). -/
theorem exec_eq_realTimeCommand {i : Instr} (hport : i.port = .rp) (s : State) :
    exec i s = realTimeCommand (payloadWords s.nch i) s (realTimeBody i) := by
  cases i with
  | query | select | reset | flush | proc => rfl
  | build | buildk => cases hport

theorem realTimeBody_effect {i : Instr} (hport : i.port = .rp) (s : State) : RealTimeEffect s i (realTimeBody i s) := by
  cases i with
  | query => exact .query
  | select a => exact .select a
  | reset d o c => exact resetEffect_realTimeEffect d o c s
  | flush c => exact flushEffect_realTimeEffect c s
  | proc m => exact procEffect_realTimeEffect m s
  | build | buildk => cases hport

/-- A real-time command that runs finds its payload on the stream (R160) and has one of its effects. -/
theorem exec_realTime {i : Instr} {s t : State} (hport : i.port = .rp) (h : exec i s = .next t) :
    payloadWords s.nch i ≤ s.rpIn.length ∧ RealTimeEffect s i t := by
  rw [exec_eq_realTimeCommand hport, realTimeCommand_next_iff] at h
  obtain ⟨-, hk, rfl⟩ := h
  exact ⟨hk, realTimeBody_effect hport s⟩

/-! The begin step of a build (R167, R168, R169, R198). -/

theorem derivedOrder_le_orderMax (n b : Nat) : derivedOrder n b ≤ orderMax := by
  have hclamp : orderMin ≤ orderMax := by decide
  unfold derivedOrder clamp
  split_ifs <;> omega

/-- Operands that pass the tests of the begin step meet R32 item 1. -/
theorem operandsOk_of_buildFault_eq_none {op : BuildOp} {n b o : Nat} (h : buildFault op n b o = none) :
    OperandsOk n b (orderFor op n b o) := by
  unfold buildFault at h
  split_ifs at h with hn hbad hsmall
  rw [not_or] at hbad
  obtain ⟨hb, horder⟩ := hbad
  refine ⟨by omega, by omega, ?_, Nat.le_of_not_lt hsmall⟩
  cases op with
  | build => exact derivedOrder_le_orderMax n b
  | buildk => exact Nat.le_of_not_lt fun hlt => horder ⟨rfl, hlt⟩

/-- What a begin step can do: a fault, or the payload taken into `PEND`. -/
inductive BeginEffect (s : State) : State → Prop
  | fault (rop : BitVec 4) (f : FaultCode) : BeginEffect s (s.raiseFault .cp rop f)
  | begins (pd : Pending) (hpd : pd.Ok) (hlen : pd.n ≤ s.cpIn.length) :
      BeginEffect s { s.recv .cp pd.n with pend := some pd }

theorem buildBegin_beginEffect (op : BuildOp) (n b o : Nat) (s : State) (hlen : n ≤ s.cpIn.length) :
    BeginEffect s (buildBegin op n b o s) := by
  cases hf : buildFault op n b o with
  | some f => exact buildBegin_fault op n b o s f hf ▸ .fault _ f
  | none =>
    rw [buildBegin_begins op n b o s hf]
    exact .begins ⟨op, n, b, orderFor op n b o, s.cpIn.take n⟩
      ⟨operandsOk_of_buildFault_eq_none hf, List.length_take_of_le hlen⟩ hlen

theorem exec_control {i : Instr} {s t : State} (hport : i.port = .cp) (h : exec i s = .next t) : BeginEffect s t := by
  cases i with
  | build n b =>
    obtain ⟨-, -, hlen, rfl⟩ := (controlCommand_next_iff _ _ _ _).1 h
    exact buildBegin_beginEffect .build n b 0 s hlen
  | buildk n b ord =>
    obtain ⟨-, -, hlen, rfl⟩ := (controlCommand_next_iff _ _ _ _).1 h
    exact buildBegin_beginEffect .buildk n b ord s hlen
  | query | select | reset | flush | proc => cases hport

end Sys2Proof.Machine
end

section
/-! R32: every step keeps the invariant. -/

namespace Sys2Proof.Machine

/-! The set (R32 items 1 to 5). -/

theorem OperandsOk.size_le {n b ord : Nat} (h : OperandsOk n b ord) : n ≤ 2 ^ ord ∧ b ≤ 2 ^ ord := by
  have hsize := h.size
  have hir := h.ir
  have hbound := h.bound
  unfold needOf at hsize
  omega

/-- Channels that are in order, as many as before, make the set in order again. -/
theorem ConvSet.Ok.withChans {nch : Nat} {cs : ConvSet} (h : cs.Ok nch) {chans : List Channel}
    (hcount : chans.length = cs.chans.length) (hchans : ∀ ch ∈ chans, ch.Ok cs.n) :
    ({ cs with chans := chans } : ConvSet).Ok nch where
  operands := h.operands
  hmem := h.hmem
  specLength := h.specLength
  count := hcount.trans h.count
  channels := hchans
  spec := h.spec
  energy := h.energy

theorem ConvSet.resetChannel_ok {nch : Nat} {cs : ConvSet} (h : cs.Ok nch) (d o : Bool) (c : Nat) :
    (cs.resetChannel d o c).Ok nch := by
  refine h.withChans (List.length_modify _ _ _) fun ch hch => ?_
  obtain ⟨j, hj⟩ := List.mem_iff_getElem?.1 hch
  rw [List.getElem?_modify, Option.map_eq_map, Option.map_eq_some_iff] at hj
  obtain ⟨old, hold, rfl⟩ := hj
  have hok : old.Ok cs.n := h.channels old (List.mem_of_getElem? hold)
  split
  · exact Channel.reset_ok cs.n d o old hok
  · exact hok

/-- The channel at an index after a `PROC` is that channel run on its own block (R33, R166). -/
theorem ConvSet.chansAfterProc_getElem? (alg : Alg) (draw m : Nat) (payload : List Word) (cs : ConvSet) (c : Nat) :
    (cs.chansAfterProc alg draw m payload)[c]? =
      cs.chans[c]?.map fun ch => (ch.proc alg cs draw c (channelBlock m c payload)).2 := by
  simp [ConvSet.chansAfterProc, ConvSet.procAll, Function.comp_def]

@[simp] theorem ConvSet.chansAfterProc_length (alg : Alg) (draw m : Nat) (payload : List Word) (cs : ConvSet) :
    (cs.chansAfterProc alg draw m payload).length = cs.chans.length := by
  simp [ConvSet.chansAfterProc, ConvSet.procAll]

theorem ConvSet.afterProc_ok {nch : Nat} {cs : ConvSet} (h : cs.Ok nch) (alg : Alg) (draw m : Nat)
    (payload : List Word) : ({ cs with chans := cs.chansAfterProc alg draw m payload } : ConvSet).Ok nch := by
  refine h.withChans (cs.chansAfterProc_length alg draw m payload) fun ch hch => ?_
  obtain ⟨c, hc⟩ := List.mem_iff_getElem?.1 hch
  rw [ConvSet.chansAfterProc_getElem?, Option.map_eq_some_iff] at hc
  obtain ⟨old, hold, rfl⟩ := hc
  exact Channel.proc_ok alg cs draw c _ old (h.channels old (List.mem_of_getElem? hold))

/-- The set a commit installs is in order, once the energy test has passed (R135, R167). -/
theorem ConvSet.construct_ok (nch : Nat) {pd : Pending} (h : pd.Ok)
    (henergy : f32IsZero (spectralEnergy num (filterSpectrum num pd.ord pd.h)) = false) :
    (ConvSet.construct nch pd (filterSpectrum num pd.ord pd.h)).Ok nch where
  operands := h.operands
  hmem := h.payload
  specLength := filterSpectrum_num_length pd.ord pd.h (h.payload ▸ h.operands.size_le.1)
  count := List.length_replicate
  channels ch hch := by
    rw [List.eq_of_mem_replicate hch]
    exact channelConstruct_ok pd.n h.operands.ir
  spec := rfl
  energy := henergy

/-! The state (R32). -/

theorem FaultCode.code_legal (f : FaultCode) : legalFault f.code := .inr ⟨f, rfl⟩

/-- The invariant looks at four fields only. -/
theorem State.Inv.frame {s t : State} (h : s.Inv) (hnch : t.nch = s.nch) (hfault : legalFault t.fault)
    (hcset : t.cset = s.cset) (hpend : t.pend = s.pend) : t.Inv where
  nch := hnch ▸ h.nch
  fault := hfault
  cset := by simpa only [hcset, hnch] using h.cset
  pend := by simpa only [hpend] using h.pend

theorem State.Inv.recv {s : State} (h : s.Inv) (p : Port) (k : Nat) : (s.recv p k).Inv :=
  h.frame (by simp) (by simpa using h.fault) (by simp) (by simp)

theorem State.Inv.raiseFault {s : State} (h : s.Inv) (p : Port) (rop : BitVec 4) (f : FaultCode) :
    (s.raiseFault p rop f).Inv :=
  h.frame (by simp) (by simpa using f.code_legal) (by simp) (by simp)

theorem State.Inv.choose {s : State} (h : s.Inv) : s.choose.2.Inv :=
  h.frame (by simp) (by simpa using h.fault) (by simp) (by simp)

/-- A set in order in place of the old one; the rest of the state as the invariant sees it is the same. -/
theorem State.Inv.installs {s t : State} {cs : ConvSet} (h : s.Inv) (hcs : cs.Ok s.nch) (hnch : t.nch = s.nch)
    (hfault : t.fault = s.fault) (hcset : t.cset = some cs) (hpend : t.pend = s.pend ∨ t.pend = none) : t.Inv where
  nch := hnch ▸ h.nch
  fault := hfault ▸ h.fault
  cset cs' hcs' := by
    rw [hcset, Option.some.injEq] at hcs'
    exact hcs' ▸ hnch ▸ hcs
  pend pd hpd := by
    rcases hpend with hp | hp
    · exact h.pend pd (hp ▸ hpd)
    · simp [hp] at hpd

theorem RealTimeEffect.inv {s t : State} {i : Instr} (he : RealTimeEffect s i t) (h : s.Inv) : t.Inv := by
  cases he with
  | query => exact h.frame (by simp) (by simpa using h.fault) (by simp) (by simp)
  | select a => exact h.frame (by simp) (by simpa using h.fault) (by simp) (by simp)
  | flush c cs => exact h.frame (by simp) (by simpa using h.fault) (by simp) (by simp)
  | reset d o c cs hset =>
    exact h.installs (ConvSet.resetChannel_ok (h.cset cs hset) d o c) (by simp) (by simp) (by simp) (by simp)
  | proc m cs hset =>
    exact h.installs (ConvSet.afterProc_ok (h.cset cs hset) s.alg s.draws m _) (by simp) (by simp)
      (procBlock_cset m cs s) (by simp)
  | fault i f => exact h.raiseFault .rp _ f
  | skip i k => exact h.frame (by simp) (by simpa using h.fault) (by simp) (by simp)

theorem BeginEffect.inv {s t : State} (he : BeginEffect s t) (h : s.Inv) : t.Inv := by
  cases he with
  | fault rop f => exact h.raiseFault .cp rop f
  | begins pd hpd =>
    have hr := h.recv .cp pd.n
    exact { nch := hr.nch, fault := hr.fault, cset := hr.cset, pend := fun pd' hpd' => Option.some.inj hpd' ▸ hpd }

theorem exec_inv {i : Instr} {s t : State} (h : s.Inv) (hx : exec i s = .next t) : t.Inv := by
  cases hport : i.port with
  | rp => exact (exec_realTime hport hx).2.inv h
  | cp => exact (exec_control hport hx).inv h

theorem buildCommit_inv {pd : Pending} {s : State} (h : s.Inv) (hpd : pd.Ok) : (buildCommit pd s).Inv := by
  rcases buildCommit_cases pd s with ⟨-, hc⟩ | ⟨henergy, hc⟩ <;> rw [hc]
  · exact h.raiseFault .cp _ .fZeroSpectrum
  · exact h.installs (ConvSet.construct_ok s.nch hpd henergy) (by simp) (by simp) (by simp) (by simp)

/-- Settles O34: a step is a commit, an illegal command or a command, and each of the three keeps the invariant. -/
theorem stepKeepsInvariant : Obligations.StepKeepsInvariant := by
  intro s t hs hstep
  obtain ⟨-, u, hu, hcase⟩ := step_cases hstep
  have hinv : u.Inv := by
    rcases hu with rfl | rfl
    · exact hs
    · exact hs.choose
  rcases hcase with ⟨pd, hpd, rfl⟩ | ⟨p, why, rop, k, -, -, rfl⟩ | ⟨p, i, k, -, -, hx⟩
  · exact buildCommit_inv hinv (hinv.pend pd hpd)
  · exact (hinv.recv p k).raiseFault p rop .fIllegalCmd
  · exact exec_inv (hinv.recv p k) hx

end Sys2Proof.Machine
end

section
/-! R25, R31, R33, R206: the streams of a step, and what a command of one port leaves to the other. -/

namespace Sys2Proof.Machine

/-! Frames of the three things a step can be. -/

/-- A real-time command leaves the control port and `PEND` alone (R206). -/
theorem RealTimeEffect.control_frame {s t : State} {i : Instr} (he : RealTimeEffect s i t) :
    s.sameCp t ∧ t.pend = s.pend := by
  cases he <;> simp [State.sameCp]

/-- A begin step leaves the real-time port, `ALG` and the set alone (R167, R206). -/
theorem BeginEffect.realTime_frame {s t : State} (he : BeginEffect s t) :
    s.sameRp t ∧ t.alg = s.alg ∧ t.cset = s.cset := by
  cases he <;> simp [State.sameRp]

/-- Settles O38: the frame of each kind of command, by the port of the command. -/
theorem portsKeepApart : Obligations.PortsKeepApart := by
  intro i s t hx
  constructor
  · intro hport
    exact (exec_realTime hport hx).2.control_frame
  · intro hport
    exact (exec_control hport hx).realTime_frame

/-! What one port's cursor and streams can do (R25, R31). -/

/-- From `inp`, `cc`, `out` to `inp'`, `cc'`, `out'` words were taken from the front, counted, and words were sent. -/
def PortAdvances (inp : List Word) (cc : Nat) (out inp' : List Word) (cc' : Nat) (out' : List Word) : Prop :=
  ∃ (k : Nat) (ws : List Word), k ≤ inp.length ∧ inp' = inp.drop k ∧ cc' = cc + k ∧ out' = out ++ ws

/-- Both ports advance and the channel count stays. -/
def State.Advances (s t : State) : Prop :=
  t.nch = s.nch ∧ PortAdvances s.rpIn s.ccRp s.rpOut t.rpIn t.ccRp t.rpOut ∧
    PortAdvances s.cpIn s.ccCp s.cpOut t.cpIn t.ccCp t.cpOut

theorem PortAdvances.rfl {inp out : List Word} {cc : Nat} : PortAdvances inp cc out inp cc out :=
  ⟨0, [], by simp⟩

theorem PortAdvances.trans {inp inp' inp'' out out' out'' : List Word} {cc cc' cc'' : Nat}
    (h : PortAdvances inp cc out inp' cc' out') (h' : PortAdvances inp' cc' out' inp'' cc'' out'') :
    PortAdvances inp cc out inp'' cc'' out'' := by
  obtain ⟨k, ws, hk, rfl, rfl, rfl⟩ := h
  obtain ⟨k', ws', hk', rfl, rfl, rfl⟩ := h'
  rw [List.length_drop] at hk'
  exact ⟨k + k', ws ++ ws', by omega, by simp, by omega, by simp⟩

theorem State.Advances.refl (s : State) : s.Advances s := ⟨rfl, .rfl, .rfl⟩

theorem State.Advances.trans {s t u : State} (h : s.Advances t) (h' : t.Advances u) : s.Advances u := by
  obtain ⟨hnch, hrp, hcp⟩ := h
  obtain ⟨hnch', hrp', hcp'⟩ := h'
  exact ⟨hnch'.trans hnch, hrp.trans hrp', hcp.trans hcp'⟩

theorem State.advances_recv (p : Port) {k : Nat} {s : State} (hk : k ≤ (s.inStream p).length) :
    s.Advances (s.recv p k) := by
  cases p with
  | rp => exact ⟨rfl, ⟨k, [], hk, rfl, rfl, by simp⟩, .rfl⟩
  | cp => exact ⟨rfl, .rfl, ⟨k, [], hk, rfl, rfl, by simp⟩⟩

theorem State.advances_send (p : Port) (ws : List Word) (s : State) : s.Advances (s.send p ws) := by
  cases p with
  | rp => exact ⟨rfl, ⟨0, ws, by simp [State.send]⟩, .rfl⟩
  | cp => exact ⟨rfl, .rfl, ⟨0, ws, by simp [State.send]⟩⟩

theorem State.advances_raiseFault (p : Port) (rop : BitVec 4) (f : FaultCode) (s : State) :
    s.Advances (s.raiseFault p rop f) :=
  State.advances_send p _ { s with fault := f.code }

theorem State.advances_choose (s : State) : s.Advances s.choose.2 := by
  refine ⟨s.choose_nch, ⟨0, [], ?_⟩, ⟨0, [], ?_⟩⟩ <;> simp

theorem RealTimeEffect.advances {s t : State} {i : Instr} (he : RealTimeEffect s i t)
    (hk : payloadWords s.nch i ≤ s.rpIn.length) : s.Advances t := by
  cases he with
  | query => exact State.advances_send .rp _ s
  | select a => exact State.advances_send .rp _ { s with alg := a }
  | reset d o c cs => exact State.advances_send .rp _ (s.withSet (cs.resetChannel d o c))
  | flush c cs => exact State.advances_send .rp _ s
  | proc m cs => exact (State.advances_recv .rp hk).trans (State.advances_send .rp _ _)
  | fault i f => exact State.advances_raiseFault .rp _ f s
  | skip i k => exact (State.advances_recv .rp hk).trans (State.advances_send .rp _ _)

theorem BeginEffect.advances {s t : State} (he : BeginEffect s t) : s.Advances t := by
  cases he with
  | fault rop f => exact State.advances_raiseFault .cp rop f s
  | begins pd hpd hlen => exact State.advances_recv .cp hlen

theorem exec_advances {i : Instr} {s t : State} (hx : exec i s = .next t) : s.Advances t := by
  cases hport : i.port with
  | rp =>
    obtain ⟨hk, he⟩ := exec_realTime hport hx
    exact he.advances hk
  | cp => exact (exec_control hport hx).advances

theorem buildCommit_advances (pd : Pending) (s : State) : s.Advances (buildCommit pd s) := by
  rcases buildCommit_cases pd s with ⟨-, hc⟩ | ⟨-, hc⟩ <;> rw [hc]
  · exact State.advances_raiseFault .cp _ .fZeroSpectrum s
  · exact State.advances_send .cp _ { s.withSet (ConvSet.construct s.nch pd _) with pend := none }

/-- Settles O13: taking and sending are the only things the commit, an illegal command and a command do to a stream. -/
theorem streamsMoveForward : Obligations.StreamsMoveForward := by
  intro s t hstep
  obtain ⟨-, u, hu, hcase⟩ := step_cases hstep
  have hchoice : s.Advances u := by
    rcases hu with rfl | rfl
    · exact .refl _
    · exact s.advances_choose
  refine hchoice.trans ?_
  rcases hcase with ⟨pd, -, rfl⟩ | ⟨p, why, rop, k, -, hf, rfl⟩ | ⟨p, i, k, -, hf, hx⟩
  · exact buildCommit_advances pd u
  · exact (State.advances_recv p (decode_illegal_taken_le hf)).trans (State.advances_raiseFault p rop _ _)
  · obtain ⟨-, hk, -⟩ := decode_command hf
    exact (State.advances_recv p hk).trans (exec_advances hx)

end Sys2Proof.Machine
end

section
/-! R24, R21, R22: which steps write `ALG`, and which write the registers of the set. -/

namespace Sys2Proof.Machine

/-! `ALG` (R24). -/

theorem RealTimeEffect.alg_eq_or_select {s t : State} {i : Instr} (he : RealTimeEffect s i t) :
    t.alg = s.alg ∨ i = .select t.alg := by
  cases he <;> simp

theorem buildCommit_alg (pd : Pending) (s : State) : (buildCommit pd s).alg = s.alg := by
  rcases buildCommit_cases pd s with ⟨-, hc⟩ | ⟨-, hc⟩ <;> simp [hc]

/-- Settles O35: of all that a step can be, only `SELECT` writes `ALG`, and it stands on `RP_IN` as one word. -/
theorem onlySelectWritesAlg : Obligations.OnlySelectWritesAlg := by
  intro s t hstep hne
  obtain ⟨-, u, hu, hcase⟩ := step_cases hstep
  have halg : u.alg = s.alg := by rcases hu with rfl | rfl <;> simp
  have hfetch : u.fetch .rp = s.fetch .rp := by rcases hu with rfl | rfl <;> simp [choose_fetch]
  rw [← halg] at hne
  rw [← hfetch]
  rcases hcase with ⟨pd, -, rfl⟩ | ⟨p, why, rop, k, -, -, rfl⟩ | ⟨p, i, k, -, hf, hx⟩
  · exact absurd (buildCommit_alg pd u) hne
  · exact absurd (by simp) hne
  · obtain ⟨rfl, -, hk⟩ := decode_command hf
    cases hport : i.port with
    | cp =>
      obtain ⟨-, hsame, -⟩ := (exec_control hport hx).realTime_frame
      exact absurd (by simpa using hsame) hne
    | rp =>
      rcases (exec_realTime hport hx).2.alg_eq_or_select with hsame | rfl
      · exact absurd (by simpa using hsame) hne
      · exact hk rfl ▸ hf

/-! The set's registers (R21, R22, R26, R27). -/

/-- No set is made, and a set that exists changes in its channels alone. -/
def KeepsRegisters (old new : Option ConvSet) : Prop :=
  (old = none → new = none) ∧ ∀ cs, old = some cs → ∃ chans : List Channel, new = some { cs with chans := chans }

theorem KeepsRegisters.of_eq {old new : Option ConvSet} (h : new = old) : KeepsRegisters old new :=
  ⟨fun hold => h.trans hold, fun cs hold => ⟨cs.chans, h.trans hold⟩⟩

theorem KeepsRegisters.of_chans {old new : Option ConvSet} {cs : ConvSet} {chans : List Channel} (hold : old = some cs)
    (hnew : new = some { cs with chans := chans }) : KeepsRegisters old new := by
  subst hold
  refine ⟨by simp, fun cs' hcs' => ⟨chans, ?_⟩⟩
  rw [hnew, Option.some.inj hcs']

theorem RealTimeEffect.keepsRegisters {s t : State} {i : Instr} (he : RealTimeEffect s i t) :
    KeepsRegisters s.cset t.cset := by
  cases he with
  | reset d o c cs hset => exact .of_chans hset rfl
  | proc m cs hset => exact .of_chans hset rfl
  | query | select | flush | fault | skip => exact .of_eq (by simp)

/-- Settles O36: outside a window no commit runs, and every other step writes at most the channels of the set. -/
theorem onlyCommitReplacesIr : Obligations.OnlyCommitReplacesIr := by
  intro s t hstep hpend
  obtain ⟨-, u, hu, hcase⟩ := step_cases hstep
  have hset : u.cset = s.cset := by rcases hu with rfl | rfl <;> simp
  have hupend : u.pend = none := by rcases hu with rfl | rfl <;> simpa using hpend
  suffices KeepsRegisters u.cset t.cset from hset ▸ this
  rcases hcase with ⟨pd, hpd, -⟩ | ⟨p, why, rop, k, -, -, rfl⟩ | ⟨p, i, k, -, -, hx⟩
  · rw [hupend] at hpd
    cases hpd
  · exact .of_eq (by simp)
  · cases hport : i.port with
    | rp => simpa using (exec_realTime hport hx).2.keepsRegisters
    | cp =>
      obtain ⟨-, -, hsame⟩ := (exec_control hport hx).realTime_frame
      exact .of_eq (by simpa using hsame)

/-! Inside a window (R30, R59, R162). -/

/-- The same state with another set and another build in progress. -/
def State.withWindow (cset : Option ConvSet) (pd : Pending) (s : State) : State :=
  { s with cset := cset, pend := some pd }

@[simp] theorem State.withWindow_cset (cset : Option ConvSet) (pd : Pending) (s : State) :
    (s.withWindow cset pd).cset = cset := rfl
@[simp] theorem State.withWindow_pend (cset : Option ConvSet) (pd : Pending) (s : State) :
    (s.withWindow cset pd).pend = some pd := rfl

theorem State.withWindow_self {s : State} {pd : Pending} (hpend : s.pend = some pd) :
    s.withWindow s.cset pd = s := by
  cases s
  cases hpend
  rfl

/-- Inside a window the try-lock is the same skip, whatever the set and the build in progress are. -/
theorem trylock_withWindow {s : State} {pd : Pending} (hpend : s.pend = some pd) (cset' : Option ConvSet)
    (pd' : Pending) (op : Opcode) (n : Nat) (body body' : ConvSet → State) :
    (s.withWindow cset' pd').trylock op n body' = (s.trylock op n body).withWindow cset' pd' := by
  rw [trylock_busy op n s body pd hpend, trylock_busy op n (s.withWindow cset' pd') body' pd' rfl]
  rfl

/-- The same with the test of the channel before it (R78 item 4). -/
theorem channelTest_withWindow {s : State} {pd : Pending} (hpend : s.pend = some pd) (cset' : Option ConvSet)
    (pd' : Pending) (op : Opcode) (c : Nat) (body body' : ConvSet → State) :
    (if s.nch ≤ c then (s.withWindow cset' pd').raiseFault .rp (opcodeBits op) .fIllegalCmd
      else (s.withWindow cset' pd').trylock op 0 body') =
    (if s.nch ≤ c then s.raiseFault .rp (opcodeBits op) .fIllegalCmd else s.trylock op 0 body).withWindow cset' pd' := by
  split
  · rfl
  · exact trylock_withWindow hpend cset' pd' op 0 body body'

theorem queryInfo_withWindow {s : State} {pd : Pending} (hpend : s.pend = some pd) {cset' : Option ConvSet}
    (hset : cset'.isSome = s.cset.isSome) (pd' : Pending) : queryInfo (s.withWindow cset' pd') = queryInfo s := by
  simp [queryInfo, State.withWindow, State.irLoaded, State.rebuilding, hpend, hset]

/-- Inside a window a real-time command neither reads nor writes the set and `PEND`. -/
theorem realTimeBody_withWindow {s : State} {pd : Pending} (hpend : s.pend = some pd) {cset' : Option ConvSet}
    (hset : cset'.isSome = s.cset.isSome) (pd' : Pending) (i : Instr) :
    realTimeBody i (s.withWindow cset' pd') = (realTimeBody i s).withWindow cset' pd' := by
  cases i with
  | query =>
    simp only [realTimeBody, queryInfo_withWindow hpend hset]
    rfl
  | select a => rfl
  | reset d o c => exact channelTest_withWindow hpend cset' pd' .reset c _ _
  | flush c => exact channelTest_withWindow hpend cset' pd' .flush c _ _
  | proc m =>
    unfold realTimeBody procEffect
    exact trylock_withWindow hpend cset' pd' .proc (s.nch * m) _ _
  | build | buildk => rfl

/-- Settles O37: a real-time command inside a window commutes with a change of the set and of `PEND`. The state's own
set and `PEND` in place of themselves are no change, so it also writes neither. -/
theorem windowHidesTheSet : Obligations.WindowHidesTheSet := by
  intro i s t pd pd' cset' hport hpend hset hx
  rw [exec_eq_realTimeCommand hport, realTimeCommand_next_iff] at hx
  obtain ⟨hfault, hk, rfl⟩ := hx
  have hsame : realTimeBody i s = (realTimeBody i s).withWindow s.cset pd := by
    rw [← realTimeBody_withWindow hpend rfl pd i, State.withWindow_self hpend]
  refine ⟨by rw [hsame, State.withWindow_cset], by rw [hsame, State.withWindow_pend, hpend], ?_⟩
  rw [exec_eq_realTimeCommand hport, realTimeCommand_next_iff]
  exact ⟨hfault, hk, (realTimeBody_withWindow hpend hset pd' i).symm⟩

end Sys2Proof.Machine
end

section
/-! R33, R166: the channels of a `PROC`. -/

namespace Sys2Proof.Machine

theorem ConvSet.chansAfterProc_map_ola (draw m : Nat) (payload : List Word) (cs : ConvSet) :
    (cs.chansAfterProc .timeDomain draw m payload).map Channel.ola = cs.chans.map Channel.ola := by
  refine List.ext_getElem? fun c => ?_
  simp only [List.getElem?_map, ConvSet.chansAfterProc_getElem?, Option.map_map]
  rfl

theorem ConvSet.chansAfterProc_map_direct (draw m : Nat) (payload : List Word) (cs : ConvSet) :
    (cs.chansAfterProc .frequencyDomain draw m payload).map Channel.direct = cs.chans.map Channel.direct := by
  refine List.ext_getElem? fun c => ?_
  simp only [List.getElem?_map, ConvSet.chansAfterProc_getElem?, Option.map_map]
  rfl

/-- Settles O39: a `PROC` that faults or is skipped leaves the set, and one that runs writes one convolver per channel. -/
theorem unselectedConvolverUntouched : Obligations.UnselectedConvolverUntouched := by
  intro m s t cs hx hset
  cases (exec_realTime rfl hx).2 with
  | fault => exact ⟨cs, by simpa using hset, fun _ => rfl, fun _ => rfl⟩
  | skip => exact ⟨cs, by simpa using hset, fun _ => rfl, fun _ => rfl⟩
  | proc m cs₀ hset₀ =>
    obtain rfl : cs₀ = cs := Option.some.inj (hset₀.symm.trans hset)
    refine ⟨_, procBlock_cset m cs₀ s, fun halg => ?_, fun halg => ?_⟩
    · rw [halg]
      exact cs₀.chansAfterProc_map_ola _ m _
    · rw [halg]
      exact cs₀.chansAfterProc_map_direct _ m _

/-- With a set and outside a window, `PROC` faults on its length or runs the block (R166, R195). -/
theorem exec_proc_ready {m : Nat} {s t : State} {cs : ConvSet} (hx : exec (.proc m) s = .next t)
    (hpend : s.pend = none) (hset : s.cset = some cs) :
    t = if m = 0 ∨ cs.b < m then s.raiseFault .rp (opcodeBits .proc) .fBadLen else procBlock m cs s := by
  rw [exec_eq_realTimeCommand rfl, realTimeCommand_next_iff] at hx
  obtain ⟨-, -, rfl⟩ := hx
  exact trylock_ready .proc (s.nch * m) s _ cs hpend hset

/-- A channel's block reads the registers of the set and none of its channels. -/
theorem Channel.proc_congr {cs cs' : ConvSet} (hn : cs.n = cs'.n) (hord : cs.ord = cs'.ord)
    (hhmem : cs.hmem = cs'.hmem) (hspec : cs.spec = cs'.spec) (alg : Alg) (draw c : Nat) (x : List Sample)
    (ch : Channel) : ch.proc alg cs draw c x = ch.proc alg cs' draw c x := by
  cases alg <;> simp only [Channel.proc, Channel.olaProc, Channel.directProc, hn, hord, hhmem, hspec]

/-- Settles O40: both machines fault on the length, or both run channel `c` on the same block with the same registers. -/
theorem channelsAreIndependent : Obligations.ChannelsAreIndependent := by
  intro m c s s' t t' cs cs' hx hx' hpend hpend' hset hset' hn hb hord hhmem hspec halg hdraws hblock hchan
  have ht := exec_proc_ready hx hpend hset
  have ht' := exec_proc_ready hx' hpend' hset'
  rw [← hb] at ht'
  split at ht
  case isTrue hbad =>
    rw [if_pos hbad] at ht'
    subst ht ht'
    exact ⟨cs, cs', by simpa using hset, by simpa using hset', hchan⟩
  case isFalse hlegal =>
    rw [if_neg hlegal] at ht'
    subst ht ht'
    refine ⟨_, _, procBlock_cset m cs s, procBlock_cset m cs' s', ?_⟩
    simp only [ConvSet.chansAfterProc_getElem?, hchan, ← hblock, halg, hdraws,
      Channel.proc_congr hn hord hhmem hspec]

end Sys2Proof.Machine
end

section
/-! R74, R75: the response of a real-time command. -/

namespace Sys2Proof.Machine

/-- The lengths a response counts fit its 16-bit field (R74, R131). -/
theorem OperandsOk.lt_countBound {n b ord : Nat} (h : OperandsOk n b ord) : n < 2 ^ 16 ∧ b < 2 ^ 16 := by
  have hpow : 2 ^ ord ≤ 2 ^ orderMax := Nat.pow_le_pow_right (by decide) h.order
  obtain ⟨hn, hb⟩ := h.size_le
  have : 2 ^ orderMax < 2 ^ 16 := by decide
  omega

theorem ConvSet.Ok.flushChannel_length {nch c : Nat} {cs : ConvSet} (h : cs.Ok nch) (hc : c < nch) :
    (cs.flushChannel c).length = cs.n - 1 := by
  have hlt : c < cs.chans.length := h.count.symm ▸ hc
  simp only [ConvSet.flushChannel, List.getElem?_eq_getElem hlt, olaFlush]
  exact (h.channels _ (List.getElem_mem hlt)).ovl

theorem channelBlock_length {nch m c : Nat} {payload : List Word} (hc : c < nch) (hp : payload.length = nch * m) :
    (channelBlock m c payload).length = m := by
  have hend : (c + 1) * m ≤ nch * m := Nat.mul_le_mul_right m hc
  rw [Nat.succ_mul] at hend
  simp only [channelBlock, List.length_take, List.length_drop]
  omega

/-- One block of `m` samples from each channel (R74, R166). -/
theorem ConvSet.procAll_output_length {alg : Alg} {draw m : Nat} {payload : List Word} {cs : ConvSet}
    (hp : payload.length = cs.chans.length * m) :
    ((cs.procAll alg draw m payload).map Prod.fst).flatten.length = cs.chans.length * m := by
  have hblock : ∀ k ∈ ((cs.procAll alg draw m payload).map Prod.fst).map List.length, k = m := by
    simp only [ConvSet.procAll, List.mem_map, List.mem_mapIdx]
    rintro _ ⟨_, ⟨_, ⟨c, hc, rfl⟩, rfl⟩, rfl⟩
    rw [Channel.proc_output_length, channelBlock_length hc hp]
  rw [List.length_flatten, List.sum_eq_card_nsmul _ m hblock]
  simp [ConvSet.procAll]

/-- From `s` to `t` the one response of `i` is sent, its parts as R74 and R75 say. -/
def SendsResponse (i : Instr) (s t : State) : Prop :=
  ∃ (st : BitVec 4) (info : BitVec 8) (cnt : BitVec 16) (pl : List Word),
    t.rpOut = s.rpOut ++ responseWord (opcodeBits i.opcode) st info cnt :: pl ∧
    st ∈ [0#4, 1#4, 2#4, 11#4, 12#4] ∧ (st ≠ 0#4 → info = 0#8 ∧ cnt = 0#16 ∧ pl = []) ∧
    (i.opcode ≠ .query → info = 0#8) ∧
    (i.opcode = .query ∨ i.opcode = .select ∨ i.opcode = .reset → cnt = 0#16 ∧ pl = []) ∧
    (s.Inv → (i.opcode = .proc → pl.length = s.nch * cnt.toNat) ∧ (i.opcode = .flush → pl.length = cnt.toNat))

/-- A response that is its first word alone, with count 0. -/
theorem SendsResponse.of_bare {i : Instr} {s t : State} {st : BitVec 4} {info : BitVec 8}
    (hout : t.rpOut = s.rpOut ++ [responseWord (opcodeBits i.opcode) st info 0#16])
    (hst : st ∈ [0#4, 1#4, 2#4, 11#4, 12#4]) (hinfo : info = 0#8 ∨ st = 0#4 ∧ i.opcode = .query) :
    SendsResponse i s t := by
  refine ⟨st, info, 0#16, [], hout, hst, fun hne => ⟨?_, rfl, rfl⟩, fun hne => ?_, fun _ => ⟨rfl, rfl⟩, by simp⟩
  · exact hinfo.resolve_right fun hq => hne hq.1
  · exact hinfo.resolve_right fun hq => hne hq.2

/-- A response with samples: the count of one channel in its first word, from `channels` channels. -/
theorem SendsResponse.of_samples {i : Instr} {s t : State} {channels count : Nat} {pl : List Word}
    (hop : i.opcode = .flush ∧ channels = 1 ∨ i.opcode = .proc ∧ channels = s.nch)
    (hout : t.rpOut = s.rpOut ++ responseWord (opcodeBits i.opcode) statusOk 0#8 (BitVec.ofNat 16 count) :: pl)
    (hcount : s.Inv → count < 2 ^ 16) (hpl : s.Inv → pl.length = channels * count) : SendsResponse i s t := by
  refine ⟨statusOk, 0#8, _, pl, hout, by decide, fun hne => absurd rfl hne, fun _ => rfl, fun h => ?_, fun hs => ?_⟩
  · rcases hop with ⟨hop, -⟩ | ⟨hop, -⟩ <;> simp [hop] at h
  · rw [BitVec.toNat_ofNat, Nat.mod_eq_of_lt (hcount hs), hpl hs]
    rcases hop with ⟨hop, rfl⟩ | ⟨hop, rfl⟩ <;> simp [hop]

theorem RealTimeEffect.sendsResponse {s t : State} {i : Instr} (he : RealTimeEffect s i t)
    (hk : payloadWords s.nch i ≤ s.rpIn.length) : SendsResponse i s t := by
  cases he with
  | query => exact .of_bare (State.answer_rp_rpOut ..) (by decide) (.inr ⟨rfl, rfl⟩)
  | select a => exact .of_bare (State.answer_rp_rpOut ..) (by decide) (.inl rfl)
  | reset d o c cs => exact .of_bare (State.answer_rp_rpOut ..) (by decide) (.inl rfl)
  | fault i f hf =>
    refine .of_bare (State.raiseFault_rp_rpOut ..) ?_ (.inl rfl)
    rcases hf with rfl | rfl <;> decide
  | skip i k =>
    refine .of_bare (State.skip_rpOut ..) ?_ (.inl rfl)
    cases k <;> decide
  | flush c cs hset hc =>
    refine .of_samples (.inl ⟨rfl, rfl⟩) (State.answer_rp_rpOut ..) (fun hs => ?_) (fun hs => ?_)
    · exact Nat.lt_of_le_of_lt (Nat.sub_le ..) (hs.cset cs hset).operands.lt_countBound.1
    · rw [(hs.cset cs hset).flushChannel_length hc, Nat.one_mul]
  | proc m cs hset hm =>
    refine .of_samples (.inr ⟨rfl, rfl⟩) (procBlock_rpOut m cs s) (fun hs => ?_) (fun hs => ?_)
    · exact Nat.lt_of_le_of_lt hm (hs.cset cs hset).operands.lt_countBound.2
    · have hcount : cs.chans.length = s.nch := (hs.cset cs hset).count
      have htake : (s.rpIn.take (s.nch * m)).length = cs.chans.length * m := by
        rw [hcount]
        exact List.length_take_of_le hk
      rw [ConvSet.procAll_output_length htake, hcount]

/-- Settles O25: each effect of a real-time command sends one response, with samples only for `FLUSH` and `PROC`. -/
theorem realTimeCommandSendsOneResponse : Obligations.RealTimeCommandSendsOneResponse := by
  intro i s t hport hx
  obtain ⟨hk, he⟩ := exec_realTime hport hx
  exact he.sendsResponse hk

end Sys2Proof.Machine
end

section
/-! R34, R58, R172, R220: the reset state has no step, and the choice where both sequencers have one. -/

namespace Sys2Proof.Machine

/-- Nothing stands on the streams of a reset state, so the run is over (R172). -/
theorem step_resetOf (nch : Nat) : step (State.resetOf nch) = .fault .runOver := rfl

/-- Settles O32: the fields as `State.resetOf` writes them, and no step. -/
theorem hardwareResetState : Obligations.HardwareResetState := fun nch =>
  ⟨rfl, rfl, rfl, rfl, rfl, rfl, rfl, rfl, rfl, rfl, rfl, rfl, step_resetOf nch⟩

theorem State.choose_of_cons {s : State} {p : Port} {rest : List Port} (h : s.sched = p :: rest) :
    s.choose = (p, { s with sched := rest }) := by
  simp [State.choose, h]

theorem State.choose_of_nil {s : State} (h : s.sched = []) :
    s.choose = (Config.arbiter s.draws, { s with draws := s.draws + 1 }) := by
  simp [State.choose, h]

/-- Where both sequencers have a step, the chosen one moves (R58). -/
theorem State.moves_of_choose {s u : State} {p : Port} (hfault : s.fault = 0#4) (hrp : s.canStep .rp = true)
    (hcp : s.canStep .cp = true) (hchoice : s.choose = (p, u)) : s.moves p u := by
  have hall : ∀ q : Port, s.canStep q = true := by
    intro q
    cases q with
    | rp => exact hrp
    | cp => exact hcp
  exact ⟨hfault, hall p, .inr ⟨hall (otherPort p), hchoice⟩⟩

/-- Settles O59: the sequencer that moves is the chosen one, and the choice is the schedule's head or a free value. -/
theorem scheduleChoosesSequencer : Obligations.ScheduleChoosesSequencer := by
  intro s hfault hrp hcp
  constructor
  · intro p rest hsched
    exact State.moves_of_choose hfault hrp hcp (State.choose_of_cons hsched)
  · intro hsched
    exact State.moves_of_choose hfault hrp hcp (State.choose_of_nil hsched)

end Sys2Proof.Machine
end

section
/-! R58, R83, R160: the step of the sequencer that moves, with or without a build in progress. -/

namespace Sys2Proof.Machine

/-! Settling which sequencer moves changes neither the stream its command is decoded from nor `PEND` (R58). -/

theorem State.moves.fetch_eq {p : Port} {s u : State} (h : s.moves p u) (q : Port) : u.fetch q = s.fetch q := by
  rcases (step_of_moves h).2 with rfl | rfl
  · rfl
  · exact choose_fetch s q

theorem State.moves.pend_eq {p : Port} {s u : State} (h : s.moves p u) : u.pend = s.pend := by
  rcases (step_of_moves h).2 with rfl | rfl
  · rfl
  · exact State.choose_pend s

/-! What a sequencer does in its step (R83, R160). -/

theorem runCommand_command {p : Port} {s : State} {i : Instr} {k : Nat} (h : s.fetch p = .command i k) :
    runCommand p s = exec i (s.recv p k) := by
  simp [runCommand, h]

theorem agentStep_commits {s : State} {pd : Pending} (h : s.pend = some pd) :
    agentStep .cp s = .next (buildCommit pd s) := by
  simp [agentStep, h]

/-- A build in progress keeps only the control sequencer from its stream. -/
theorem agentStep_runs {p : Port} {s : State} (h : p = .cp → s.pend = none) : agentStep p s = runCommand p s := by
  cases p with
  | rp => rfl
  | cp => simp [agentStep, h rfl]

/-- Where a port's sequencer moves with no commit in its way, the step runs the head of the port's stream. -/
theorem step_runs_of_moves {p : Port} {s u : State} (h : s.moves p u) (hpend : p = .cp → s.pend = none) :
    step s = runCommand p u := by
  have hpend' : p = .cp → u.pend = none := fun hp => h.pend_eq.trans (hpend hp)
  rw [(step_of_moves h).1, agentStep_runs hpend']

/-- Settles O5: the choice of the sequencer leaves the stream as it was, so the command it runs is the one in `s`. -/
theorem stepRunsDecodedCommand : Obligations.StepRunsDecodedCommand := by
  intro p s u i k hmoves hpend hfetch
  rw [step_runs_of_moves hmoves hpend, runCommand_command ((hmoves.fetch_eq p).trans hfetch)]

/-- Settles O6: the choice of the sequencer leaves `PEND` as it was, and the control sequencer looks at `PEND` first. -/
theorem stepCommitsBuildInProgress : Obligations.StepCommitsBuildInProgress := by
  intro s u pd hmoves hpend
  rw [(step_of_moves hmoves).1, agentStep_commits (hmoves.pend_eq.trans hpend)]

end Sys2Proof.Machine
end

section
/-! R71, R72, R76, R78, R83: the decoder's answers, once for a legal and once for an illegal header word, and the inverse
of the encoder. -/

namespace Sys2Proof

open Sys2Proof.Machine

/-! The fields determine a word (R71, R72). -/

theorem headerWord_fields {op : Opcode} {w : Word} (hop : opField w = op.code) :
    headerWord op (minorField w) (chanField w) (lenField w) = w := by
  apply BitVec.eq_of_toNat_eq
  simp only [headerWord, BitVec.toNat_ofNat, ← hop, opField, minorField, chanField, lenField]
  omega

theorem paramWord_fields {w : Word} (hreserved : w1Reserved w = 0) : paramWord (ordField w) (bszField w) = w := by
  apply BitVec.eq_of_toNat_eq
  simp only [paramWord, BitVec.toNat_ofNat, ordField, bszField]
  unfold w1Reserved at hreserved
  omega

theorem opField_lt (w : Word) : opField w < 16 := by unfold opField; omega
theorem minorField_lt (w : Word) : minorField w < 16 := Nat.mod_lt _ (by decide)
theorem chanField_lt (w : Word) : chanField w < 256 := Nat.mod_lt _ (by decide)
theorem lenField_lt (w : Word) : lenField w < 65536 := Nat.mod_lt _ (by decide)
theorem w1Reserved_lt (w : Word) : w1Reserved w < 2048 := by unfold w1Reserved; omega
theorem ordField_lt (w : Word) : ordField w < 32 := Nat.mod_lt _ (by decide)
theorem bszField_lt (w : Word) : bszField w < 65536 := Nat.mod_lt _ (by decide)

/-! The opcode map (R76). -/

theorem Opcode.ofNat?_eq_some_iff {n : Nat} {op : Opcode} : Opcode.ofNat? n = some op ↔ n = op.code := by
  constructor
  · intro h
    unfold Opcode.ofNat? at h
    split at h <;> cases h <;> rfl
  · rintro rfl
    cases op <;> rfl

theorem Opcode.code_injective {op op' : Opcode} (h : op.code = op'.code) : op = op' :=
  Option.some.inj ((Opcode.ofNat?_eq_some_iff.2 h).symm.trans (Opcode.ofNat?_eq_some_iff.2 rfl)).symm

/-! The decode of a stream with a word on it (R83). -/

/-- The header word is legal on the port as far as it shows: a defined opcode of the port, and its reserved bits are 0
(R78 items 1 to 3). -/
def HeaderLegal (p : Port) (op : Opcode) (w : Word) : Prop :=
  opField w = op.code ∧ op.port = p ∧ op.reservedClear w = true

theorem decode_of_opcode {p : Port} {op : Opcode} {w : Word} (hop : opField w = op.code) (rest : List Word) :
    decode p (w :: rest) =
      if op.port = p then
        if op.reservedClear w then
          if p = .rp then .command (decodeRealTime op w) 1 else decodeBuild op w rest
        else .illegal .reservedBit (opBits w) 1
      else .illegal .wrongPort (opBits w) 1 := by
  simp only [decode, Opcode.ofNat?_eq_some_iff.2 hop]

theorem HeaderLegal.decode_rp {op : Opcode} {w : Word} (h : HeaderLegal .rp op w) (rest : List Word) :
    decode .rp (w :: rest) = .command (decodeRealTime op w) 1 := by
  obtain ⟨hop, hport, hclear⟩ := h
  rw [decode_of_opcode hop, if_pos hport, if_pos hclear, if_pos rfl]

theorem HeaderLegal.decode_cp {op : Opcode} {w : Word} (h : HeaderLegal .cp op w) (rest : List Word) :
    decode .cp (w :: rest) = decodeBuild op w rest := by
  obtain ⟨hop, hport, hclear⟩ := h
  rw [decode_of_opcode hop, if_pos hport, if_pos hclear, if_neg (by decide)]

theorem decode_of_not_headerLegal {p : Port} {w : Word} (h : ¬ ∃ op, HeaderLegal p op w) (rest : List Word) :
    ∃ why, why ≠ .reservedBitW1 ∧ decode p (w :: rest) = .illegal why (opBits w) 1 := by
  cases hof : Opcode.ofNat? (opField w) with
  | none => exact ⟨.undefinedOpcode, by decide, by simp only [decode, hof]⟩
  | some op =>
    have hop : opField w = op.code := Opcode.ofNat?_eq_some_iff.1 hof
    rw [decode_of_opcode hop]
    by_cases hport : op.port = p
    · have hclear : ¬ op.reservedClear w = true := fun hclear => h ⟨op, hop, hport, hclear⟩
      exact ⟨.reservedBit, by decide, by rw [if_pos hport, if_neg hclear]⟩
    · exact ⟨.wrongPort, by decide, if_neg hport⟩

theorem decodeBuild_clear {op : Opcode} {w1 : Word} (h : op.w1Clear w1 = true) (w : Word) (rest : List Word) :
    decodeBuild op w (w1 :: rest) =
      .command (if op = .build then .build (lenField w) (bszField w1)
        else .buildk (lenField w) (bszField w1) (ordField w1)) 2 := if_pos h

theorem decodeBuild_not_clear {op : Opcode} {w1 : Word} (h : ¬ op.w1Clear w1 = true) (w : Word) (rest : List Word) :
    decodeBuild op w (w1 :: rest) = .illegal .reservedBitW1 (opBits w) 2 := if_neg h

/-- A build that is illegal once its `W0` is legal is so by its `W1`. -/
theorem decodeBuild_illegal_reason {op : Opcode} {w : Word} {rest : List Word} {why : Illegal} {rop : BitVec 4}
    {k : Nat} (h : decodeBuild op w rest = .illegal why rop k) : why = .reservedBitW1 ∧ rop = opBits w ∧ k = 2 := by
  cases rest with
  | nil => cases h
  | cons w1 rest =>
    by_cases hclear : op.w1Clear w1 = true
    · cases (decodeBuild_clear hclear w rest).symm.trans h
    · obtain ⟨rfl, rfl, rfl⟩ := Decoded.illegal.inj ((decodeBuild_not_clear hclear w rest).symm.trans h)
      exact ⟨rfl, rfl, rfl⟩

/-! The encoder undone (R71, R72, R76, R79). -/

theorem decode_headerWord_rp {op : Opcode} {a ch len : Nat} (ha : a < 16) (hc : ch < 256) (hl : len < 65536)
    (hport : op.port = .rp) (hclear : op.reservedClear (headerWord op a ch len) = true) (rest : List Word) :
    decode .rp (headerWord op a ch len :: rest) = .command (decodeRealTime op (headerWord op a ch len)) 1 :=
  HeaderLegal.decode_rp ⟨opField_headerWord op a ch len ha hc hl, hport, hclear⟩ rest

/-- The decode of a build from the two words of its encoding. -/
theorem decode_headerWord_cp {op : Opcode} {n b ord : Nat} (hport : op.port = .cp) (hn : n < 65536) (hb : b < 65536)
    (ho : ord < 32) (hbuild : op = .build → ord = 0) (rest : List Word) :
    decode .cp (headerWord op 0 0 n :: paramWord ord b :: rest) =
      .command (if op = .build then .build n b else .buildk n b ord) 2 := by
  have hlegal : HeaderLegal .cp op (headerWord op 0 0 n) := by
    refine ⟨opField_headerWord op 0 0 n (by decide) (by decide) hn, hport, ?_⟩
    cases op <;> simp_all [Opcode.reservedClear, Opcode.port, minorField_headerWord, chanField_headerWord]
  have hclear : op.w1Clear (paramWord ord b) = true := by
    cases op <;> simp_all [Opcode.w1Clear, w1Reserved_paramWord, ordField_paramWord]
  rw [hlegal.decode_cp, decodeBuild_clear hclear, lenField_headerWord op 0 0 n (by decide) (by decide) hn,
    bszField_paramWord ord b ho hb, ordField_paramWord ord b ho hb]

/-- Settles O1: each command's fields come back from the words that hold them. -/
theorem decodeInvertsEncode : Obligations.DecodeInvertsEncode := by
  intro i rest hwf
  cases i with
  | query => exact decode_headerWord_rp (by decide) (by decide) (by decide) rfl (by decide) rest
  | select a =>
    cases a <;> exact decode_headerWord_rp (by decide) (by decide) (by decide) rfl (by decide) rest
  | reset d o c =>
    have hc : c < 256 := by simpa [Instr.wf] using hwf
    have ha : d.toNat + 2 * o.toNat < 16 := by cases d <;> cases o <;> decide
    refine (decode_headerWord_rp ha hc (by decide) rfl ?_ rest).trans ?_
    · cases d <;> cases o <;> simp [Opcode.reservedClear, minorField_headerWord, lenField_headerWord, hc]
    · cases d <;> cases o <;> simp [decodeRealTime, minorField_headerWord, chanField_headerWord, hc, headerWords]
  | flush c =>
    have hc : c < 256 := by simpa [Instr.wf] using hwf
    refine (decode_headerWord_rp (by decide) hc (by decide) rfl ?_ rest).trans ?_
    · simp [Opcode.reservedClear, minorField_headerWord, lenField_headerWord, hc]
    · simp [decodeRealTime, chanField_headerWord, hc, headerWords]
  | proc m =>
    have hm : m < 65536 := by simpa [Instr.wf] using hwf
    refine (decode_headerWord_rp (by decide) (by decide) hm rfl ?_ rest).trans ?_
    · simp [Opcode.reservedClear, minorField_headerWord, chanField_headerWord, hm]
    · simp [decodeRealTime, lenField_headerWord, hm, headerWords]
  | build n b =>
    obtain ⟨hn, hb⟩ : n < 65536 ∧ b < 65536 := by simpa [Instr.wf] using hwf
    exact decode_headerWord_cp (op := .build) rfl hn hb (by decide) (fun _ => rfl) rest
  | buildk n b ord =>
    obtain ⟨⟨hn, hb⟩, ho⟩ : (n < 65536 ∧ b < 65536) ∧ ord < 32 := by simpa [Instr.wf] using hwf
    exact decode_headerWord_cp (op := .buildk) rfl hn hb ho (fun h => by cases h) rest

/-! What decodes as a command (R78, R83). -/

/-- The one way to a command: a header word legal on the port, alone or with the parameter word of a build. -/
theorem decode_command_headerLegal {p : Port} {ws : List Word} {i : Instr} {k : Nat} (h : decode p ws = .command i k) :
    ∃ w rest op, ws = w :: rest ∧ HeaderLegal p op w ∧
      (p = .rp ∧ i = decodeRealTime op w ∧ k = 1 ∨ p = .cp ∧ decodeBuild op w rest = .command i k) := by
  cases ws with
  | nil => cases h
  | cons w rest =>
    by_cases hlegal : ∃ op, HeaderLegal p op w
    · obtain ⟨op, hop⟩ := hlegal
      refine ⟨w, rest, op, rfl, hop, ?_⟩
      cases p with
      | rp =>
        obtain ⟨rfl, rfl⟩ := Decoded.command.inj ((hop.decode_rp rest).symm.trans h)
        exact .inl ⟨rfl, rfl, rfl⟩
      | cp => exact .inr ⟨rfl, (hop.decode_cp rest).symm.trans h⟩
    · obtain ⟨why, -, hillegal⟩ := decode_of_not_headerLegal hlegal rest
      cases hillegal.symm.trans h

theorem decodeRealTime_wf (op : Opcode) (w : Word) : (decodeRealTime op w).wf = true := by
  have hc := chanField_lt w
  have hl := lenField_lt w
  cases op <;> simp [decodeRealTime, Instr.wf, hc, hl]

/-- `SELECT` carries its algorithm in one bit (R24). -/
theorem bit_algOfBit (b : Nat) : (algOfBit b).bit = b % 2 := by
  unfold algOfBit
  split <;> simp only [Alg.bit] <;> omega

/-- `RESET` carries its unit mask in two bits (R80). -/
theorem unitMask_bits {a : Nat} (ha : a / 4 = 0) : (a % 2 == 1).toNat + 2 * (a / 2 % 2 == 1).toNat = a := by
  have hlt : a < 4 := by omega
  interval_cases a <;> rfl

theorem headerWords_of_port_rp {i : Instr} (h : i.port = .rp) : headerWords i = 1 := by
  cases i with
  | query | select | reset | flush | proc => rfl
  | build | buildk => cases h

theorem encode_decodeRealTime {op : Opcode} {w : Word} (h : HeaderLegal .rp op w) :
    encode (decodeRealTime op w) = [w] := by
  obtain ⟨hop, hport, hclear⟩ := h
  have hw := headerWord_fields hop
  cases op with
  | query | flush | proc => simp_all [Opcode.reservedClear, decodeRealTime, encode]
  | select =>
    obtain ⟨⟨ha, hc⟩, hl⟩ : (minorField w / 2 = 0 ∧ chanField w = 0) ∧ lenField w = 0 := by
      simpa [Opcode.reservedClear] using hclear
    have hbit : minorField w % 2 = minorField w := by omega
    rw [hc, hl] at hw
    simp [decodeRealTime, encode, bit_algOfBit, hbit, hw]
  | reset =>
    obtain ⟨ha, hl⟩ : minorField w / 4 = 0 ∧ lenField w = 0 := by simpa [Opcode.reservedClear] using hclear
    rw [hl] at hw
    simp only [decodeRealTime, encode, unitMask_bits ha, hw]
  | build | buildk => cases hport

/-- The decode of a build, read backwards (R71, R72). -/
theorem decodeBuild_command_encode {op : Opcode} {w : Word} {rest : List Word} {i : Instr} {k : Nat}
    (hlegal : HeaderLegal .cp op w) (h : decodeBuild op w rest = .command i k) :
    i.wf = true ∧ k = headerWords i ∧ (w :: rest).take k = encode i := by
  obtain ⟨hop, hport, hheader⟩ := hlegal
  cases rest with
  | nil => cases h
  | cons w1 rest =>
    by_cases hclear : op.w1Clear w1 = true
    · obtain ⟨rfl, rfl⟩ := Decoded.command.inj ((decodeBuild_clear hclear w rest).symm.trans h)
      have hn := lenField_lt w
      have hb := bszField_lt w1
      have ho := ordField_lt w1
      have hw := headerWord_fields hop
      cases op with
      | build =>
        obtain ⟨hreserved, hord⟩ : w1Reserved w1 = 0 ∧ ordField w1 = 0 := by simpa [Opcode.w1Clear] using hclear
        obtain ⟨ha, hc⟩ : minorField w = 0 ∧ chanField w = 0 := by simpa [Opcode.reservedClear] using hheader
        have hw1 := paramWord_fields hreserved
        rw [hord] at hw1
        rw [ha, hc] at hw
        exact ⟨by simp [Instr.wf, hn, hb], rfl, by simp [encode, hw, hw1]⟩
      | buildk =>
        have hreserved : w1Reserved w1 = 0 := by simpa [Opcode.w1Clear] using hclear
        obtain ⟨ha, hc⟩ : minorField w = 0 ∧ chanField w = 0 := by simpa [Opcode.reservedClear] using hheader
        have hw1 := paramWord_fields hreserved
        rw [ha, hc] at hw
        exact ⟨by simp [Instr.wf, hn, hb, ho], rfl, by simp [encode, hw, hw1]⟩
      | query | select | reset | flush | proc => cases hport
    · cases (decodeBuild_not_clear hclear w rest).symm.trans h

/-- Settles O2: the words taken are the fields put together again. -/
theorem encodeInvertsDecode : Obligations.EncodeInvertsDecode := by
  intro p ws i k h
  have hport : i.port = p := (decode_command h).1
  obtain ⟨w, rest, op, rfl, hlegal, ⟨rfl, rfl, rfl⟩ | ⟨rfl, hbuild⟩⟩ := decode_command_headerLegal h
  · exact ⟨decodeRealTime_wf op w, hport, (headerWords_of_port_rp hport).symm, (encode_decodeRealTime hlegal).symm⟩
  · obtain ⟨hwf, hk, henc⟩ := decodeBuild_command_encode hlegal hbuild
    exact ⟨hwf, hport, hk, henc⟩

/-! The match and mask table (R76). -/

/-- A word is its four `W0` fields. -/
theorem eq_iff_fields {w v : Word} :
    w = v ↔ opField w = opField v ∧ minorField w = minorField v ∧ chanField w = chanField v ∧
      lenField w = lenField v := by
  refine ⟨fun h => h ▸ ⟨rfl, rfl, rfl, rfl⟩, fun h => BitVec.eq_of_toNat_eq ?_⟩
  simp only [opField, minorField, chanField, lenField] at h
  omega

/-- A word is its three `W1` fields. -/
theorem eq_iff_paramFields {w v : Word} :
    w = v ↔ w1Reserved w = w1Reserved v ∧ ordField w = ordField v ∧ bszField w = bszField v := by
  refine ⟨fun h => h ▸ ⟨rfl, rfl, rfl⟩, fun h => BitVec.eq_of_toNat_eq ?_⟩
  simp only [w1Reserved, ordField, bszField] at h
  omega

/-! A mask acts on each field by itself. -/

theorem opField_and (w m : Word) : opField (w &&& m) = opField w &&& opField m := by
  simp only [opField, BitVec.toNat_and, Nat.and_div_two_pow]

theorem minorField_and (w m : Word) : minorField (w &&& m) = minorField w &&& minorField m := by
  simp only [minorField, BitVec.toNat_and, Nat.and_div_two_pow]
  exact Nat.and_mod_two_pow (n := 4)

theorem chanField_and (w m : Word) : chanField (w &&& m) = chanField w &&& chanField m := by
  simp only [chanField, BitVec.toNat_and, Nat.and_div_two_pow]
  exact Nat.and_mod_two_pow (n := 8)

theorem lenField_and (w m : Word) : lenField (w &&& m) = lenField w &&& lenField m := by
  simp only [lenField, BitVec.toNat_and, Nat.and_mod_two_pow]

theorem w1Reserved_and (w m : Word) : w1Reserved (w &&& m) = w1Reserved w &&& w1Reserved m := by
  simp only [w1Reserved, BitVec.toNat_and, Nat.and_div_two_pow]

theorem ordField_and (w m : Word) : ordField (w &&& m) = ordField w &&& ordField m := by
  simp only [ordField, BitVec.toNat_and, Nat.and_div_two_pow]
  exact Nat.and_mod_two_pow (n := 5)

theorem bszField_and (w m : Word) : bszField (w &&& m) = bszField w &&& bszField m := by
  simp only [bszField, BitVec.toNat_and, Nat.and_mod_two_pow]

/-! A mask of ones, all or none of a field. -/

@[simp] theorem opField_and_ones (w : Word) : opField w &&& 15 = opField w :=
  Nat.and_two_pow_sub_one_of_lt_two_pow (n := 4) (opField_lt w)

@[simp] theorem minorField_and_ones (w : Word) : minorField w &&& 15 = minorField w :=
  Nat.and_two_pow_sub_one_of_lt_two_pow (n := 4) (minorField_lt w)

@[simp] theorem chanField_and_ones (w : Word) : chanField w &&& 255 = chanField w :=
  Nat.and_two_pow_sub_one_of_lt_two_pow (n := 8) (chanField_lt w)

@[simp] theorem lenField_and_ones (w : Word) : lenField w &&& 65535 = lenField w :=
  Nat.and_two_pow_sub_one_of_lt_two_pow (n := 16) (lenField_lt w)

@[simp] theorem w1Reserved_and_ones (w : Word) : w1Reserved w &&& 2047 = w1Reserved w :=
  Nat.and_two_pow_sub_one_of_lt_two_pow (n := 11) (w1Reserved_lt w)

@[simp] theorem ordField_and_ones (w : Word) : ordField w &&& 31 = ordField w :=
  Nat.and_two_pow_sub_one_of_lt_two_pow (n := 5) (ordField_lt w)

/-- The mask of `SELECT` spares the algorithm bit (R24). -/
theorem minorField_and_select (w : Word) : minorField w &&& 14 = 0 ↔ minorField w / 2 = 0 := by
  have h : ∀ a < 16, a &&& 14 = 0 ↔ a / 2 = 0 := by decide
  exact h _ (minorField_lt w)

/-- The mask of `RESET` spares the two bits of the unit mask (R80). -/
theorem minorField_and_reset (w : Word) : minorField w &&& 12 = 0 ↔ minorField w / 4 = 0 := by
  have h : ∀ a < 16, a &&& 12 = 0 ↔ a / 4 = 0 := by decide
  exact h _ (minorField_lt w)

theorem Opcode.matchMask_fst (op : Opcode) : op.matchMask.1 = headerWord op 0 0 0 := by cases op <;> rfl

theorem Opcode.matchMask_opField (op : Opcode) : opField op.matchMask.2 = 15 := by cases op <;> rfl

/-- Beside the opcode field, a mask holds the reserved bits of `W0` (R71, R76). -/
theorem Opcode.reservedClear_iff_mask (op : Opcode) (w : Word) :
    op.reservedClear w = true ↔
      minorField w &&& minorField op.matchMask.2 = 0 ∧ chanField w &&& chanField op.matchMask.2 = 0 ∧
        lenField w &&& lenField op.matchMask.2 = 0 := by
  cases op with
  | query =>
    show _ ↔ minorField w &&& 15 = 0 ∧ chanField w &&& 255 = 0 ∧ lenField w &&& 65535 = 0
    simp [reservedClear, and_assoc]
  | select =>
    show _ ↔ minorField w &&& 14 = 0 ∧ chanField w &&& 255 = 0 ∧ lenField w &&& 65535 = 0
    simp [reservedClear, and_assoc, minorField_and_select]
  | reset =>
    show _ ↔ minorField w &&& 12 = 0 ∧ chanField w &&& 0 = 0 ∧ lenField w &&& 65535 = 0
    simp [reservedClear, minorField_and_reset]
  | flush =>
    show _ ↔ minorField w &&& 15 = 0 ∧ chanField w &&& 0 = 0 ∧ lenField w &&& 65535 = 0
    simp [reservedClear]
  | proc | build | buildk =>
    show _ ↔ minorField w &&& 15 = 0 ∧ chanField w &&& 255 = 0 ∧ lenField w &&& 0 = 0
    simp [reservedClear]

/-- A word selects a row of the table where it has the row's opcode and its reserved bits are 0 (R76). -/
theorem Opcode.selects_iff (op : Opcode) (w : Word) :
    op.selects w = true ↔ opField w = op.code ∧ op.reservedClear w = true := by
  rw [reservedClear_iff_mask, selects, beq_iff_eq, eq_iff_fields, opField_and, minorField_and, chanField_and,
    lenField_and, matchMask_opField, opField_and_ones, matchMask_fst, opField_headerWord, minorField_headerWord,
    chanField_headerWord, lenField_headerWord] <;> decide

theorem headerLegal_iff_selects (p : Port) (op : Opcode) (w : Word) :
    HeaderLegal p op w ↔ op.port = p ∧ op.selects w = true := by
  rw [HeaderLegal, Opcode.selects_iff, and_left_comm]

theorem w1Clear_build_iff_mask (w : Word) : Opcode.build.w1Clear w = true ↔ w &&& 0xFFFF0000#32 = 0#32 := by
  rw [eq_iff_paramFields, w1Reserved_and, ordField_and, bszField_and]
  show _ ↔ w1Reserved w &&& 2047 = 0 ∧ ordField w &&& 31 = 0 ∧ bszField w &&& 0 = 0
  simp [Opcode.w1Clear]

theorem w1Clear_buildk_iff_mask (w : Word) : Opcode.buildk.w1Clear w = true ↔ w &&& 0xFFE00000#32 = 0#32 := by
  rw [eq_iff_paramFields, w1Reserved_and, ordField_and, bszField_and]
  show _ ↔ w1Reserved w &&& 2047 = 0 ∧ ordField w &&& 0 = 0 ∧ bszField w &&& 0 = 0
  simp [Opcode.w1Clear]

/-! Illegal commands (R78, R83). -/

/-- A command is illegal by its header word alone, or it is a build with a legal header word and a reserved bit in
`W1`. -/
theorem decode_illegal_cases {p : Port} {w : Word} {rest : List Word} {why : Illegal} {rop : BitVec 4} {k : Nat}
    (h : decode p (w :: rest) = .illegal why rop k) :
    rop = opBits w ∧ ((¬ ∃ op, HeaderLegal p op w) ∧ why ≠ .reservedBitW1 ∧ k = 1 ∨
      (∃ op, HeaderLegal p op w) ∧ p = .cp ∧ why = .reservedBitW1 ∧ k = 2) := by
  by_cases hlegal : ∃ op, HeaderLegal p op w
  · obtain ⟨op, hop⟩ := hlegal
    cases p with
    | rp => cases (hop.decode_rp rest).symm.trans h
    | cp =>
      obtain ⟨hwhy, hrop, hk⟩ := decodeBuild_illegal_reason ((hop.decode_cp rest).symm.trans h)
      exact ⟨hrop, .inr ⟨⟨op, hop⟩, rfl, hwhy, hk⟩⟩
  · obtain ⟨why', hwhy', hillegal⟩ := decode_of_not_headerLegal hlegal rest
    obtain ⟨rfl, rfl, rfl⟩ := Decoded.illegal.inj (hillegal.symm.trans h)
    exact ⟨rfl, .inl ⟨hlegal, hwhy', rfl⟩⟩

theorem decode_illegal_one_iff (p : Port) (w : Word) (rest : List Word) :
    (∃ why rop, decode p (w :: rest) = .illegal why rop 1) ↔ ¬ ∃ op, HeaderLegal p op w := by
  constructor
  · rintro ⟨why, rop, h⟩
    obtain ⟨-, ⟨hillegal, -, -⟩ | ⟨-, -, -, hk⟩⟩ := decode_illegal_cases h
    · exact hillegal
    · cases hk
  · intro hillegal
    obtain ⟨why, -, h⟩ := decode_of_not_headerLegal hillegal rest
    exact ⟨why, opBits w, h⟩

/-- Settles O3: a word matches a row exactly where it is a legal header word, and its opcode names the row. -/
theorem matchMaskTableDecides : Obligations.MatchMaskTableDecides := by
  refine ⟨fun p w rest => ?_, fun w op op' h h' => ?_, fun w => ⟨w1Clear_build_iff_mask w, w1Clear_buildk_iff_mask w⟩⟩
  · simp only [decode_illegal_one_iff, headerLegal_iff_selects]
  · have hop := ((op.selects_iff w).1 h).1
    have hop' := ((op'.selects_iff w).1 h').1
    exact Opcode.code_injective (hop.symm.trans hop')

/-- The bits a response copies into `ROP` are `W0[31:28]` (R74). -/
theorem opBits_eq_extractLsb' (w : Word) : opBits w = w.extractLsb' 28 4 := by
  apply BitVec.eq_of_toNat_eq
  simp [opBits, opField, BitVec.extractLsb'_toNat, Nat.shiftRight_eq_div_pow]

end Sys2Proof
end

section
/-! R78, R83, R196, R197: the step on an illegal command. -/

namespace Sys2Proof.Machine

theorem State.moves.inStream_eq {p : Port} {s u : State} (h : s.moves p u) (q : Port) :
    u.inStream q = s.inStream q := by
  rcases (step_of_moves h).2 with rfl | rfl
  · rfl
  · exact choose_inStream s q

theorem runCommand_illegal {p : Port} {s : State} {why : Illegal} {rop : BitVec 4} {k : Nat}
    (h : s.fetch p = .illegal why rop k) : runCommand p s = .next ((s.recv p k).raiseFault p rop .fIllegalCmd) := by
  simp [runCommand, h]

/-- Where a port's sequencer moves onto an illegal command, the step takes its words and faults. -/
theorem step_illegal_of_moves {p : Port} {s u : State} {why : Illegal} {rop : BitVec 4} {k : Nat} (h : s.moves p u)
    (hpend : p = .cp → s.pend = none) (hfetch : s.fetch p = .illegal why rop k) :
    step s = .next ((u.recv p k).raiseFault p rop .fIllegalCmd) := by
  rw [step_runs_of_moves h hpend, runCommand_illegal ((h.fetch_eq p).trans hfetch)]

/-- The state after an illegal command of each port, written out (R196). -/
theorem State.recv_raiseFault_rp (k : Nat) (rop : BitVec 4) (f : FaultCode) (s : State) :
    (s.recv .rp k).raiseFault .rp rop f =
      { s with
        fault := f.code, rpIn := s.rpIn.drop k, ccRp := s.ccRp + k,
        rpOut := s.rpOut ++ [responseWord rop f.code 0#8 0#16] } := rfl

theorem State.recv_raiseFault_cp (k : Nat) (rop : BitVec 4) (f : FaultCode) (s : State) :
    (s.recv .cp k).raiseFault .cp rop f =
      { s with
        fault := f.code, cpIn := s.cpIn.drop k, ccCp := s.ccCp + k,
        cpOut := s.cpOut ++ [responseWord rop f.code 0#8 0#16] } := rfl

theorem fetch_illegal_cases {p : Port} {s : State} {w : Word} {rest : List Word} {why : Illegal} {rop : BitVec 4}
    {k : Nat} (hin : s.inStream p = w :: rest) (h : s.fetch p = .illegal why rop k) :
    rop = w.extractLsb' 28 4 ∧ (why ≠ .reservedBitW1 ∧ k = 1 ∨ p = .cp ∧ why = .reservedBitW1 ∧ k = 2) := by
  rw [State.fetch, hin] at h
  obtain ⟨hrop, ⟨-, hone⟩ | ⟨-, htwo⟩⟩ := decode_illegal_cases h
  · exact ⟨hrop.trans (opBits_eq_extractLsb' w), .inl hone⟩
  · exact ⟨hrop.trans (opBits_eq_extractLsb' w), .inr htwo⟩

/-- Settles O7: on the real-time port the decoder never looks past the first word of an illegal command. -/
theorem illegalRealTimeCommandFaults : Obligations.IllegalRealTimeCommandFaults := by
  intro s u w rest why rop k hmoves hin hfetch
  obtain ⟨rfl, ⟨-, rfl⟩ | ⟨hp, -⟩⟩ := fetch_illegal_cases (p := .rp) hin hfetch
  · have hu : u.rpIn = w :: rest := (hmoves.inStream_eq .rp).trans hin
    rw [step_illegal_of_moves hmoves (fun hp => by cases hp) hfetch, State.recv_raiseFault_rp, hu]
    rfl
  · cases hp

/-- Settles O8: the reason says whether the decoder has read `W1` as well. -/
theorem illegalControlCommandFaults : Obligations.IllegalControlCommandFaults := by
  intro s u w rest why rop k hmoves hpend hin hfetch
  obtain ⟨rfl, hk⟩ := fetch_illegal_cases (p := .cp) hin hfetch
  have hu : u.cpIn = w :: rest := (hmoves.inStream_eq .cp).trans hin
  constructor
  · rcases hk with ⟨hwhy, rfl⟩ | ⟨-, rfl, rfl⟩
    · rw [if_neg hwhy]
    · rfl
  · rw [step_illegal_of_moves hmoves (fun _ => hpend) hfetch, State.recv_raiseFault_cp, hu]
    rfl

end Sys2Proof.Machine
end

section
/-! R78 item 4, R197, R202: a channel that does not exist. R74: the lengths of the responses with samples. -/

namespace Sys2Proof.Machine

/-- Settles O21: both effects test the channel first (log 18). -/
theorem channelOutOfRangeFaults : Obligations.ChannelOutOfRangeFaults := by
  intro d o c s hfault hc
  have hreset : resetEffect d o c s = s.raiseFault .rp (opcodeBits .reset) .fIllegalCmd := if_pos hc
  have hflush : flushEffect c s = s.raiseFault .rp (opcodeBits .flush) .fIllegalCmd := if_pos hc
  constructor
  · exact (realTimeCommand_runs 0 s _ hfault (Nat.zero_le _)).trans (congrArg _ hreset)
  · exact (realTimeCommand_runs 0 s _ hfault (Nat.zero_le _)).trans (congrArg _ hflush)

/-- With a set and outside a window, `FLUSH` of a channel that exists answers with its overlap (R165). -/
theorem exec_flush_ready {c : Nat} {s t : State} {cs : ConvSet} (hx : exec (.flush c) s = .next t)
    (hpend : s.pend = none) (hset : s.cset = some cs) (hc : c < s.nch) :
    t = s.answer .rp .flush 0#8 (cs.n - 1) (cs.flushChannel c) := by
  rw [exec_eq_realTimeCommand rfl, realTimeCommand_next_iff] at hx
  obtain ⟨-, -, rfl⟩ := hx
  exact (if_neg (Nat.not_le_of_lt hc)).trans (trylock_ready .flush 0 s _ cs hpend hset)

theorem procBlock_rpOut_length {m : Nat} {cs : ConvSet} {s : State} (hcs : cs.Ok s.nch)
    (hk : s.nch * m ≤ s.rpIn.length) : (procBlock m cs s).rpOut.length = s.rpOut.length + 1 + s.nch * m := by
  have htake : (s.rpIn.take (s.nch * m)).length = cs.chans.length * m := by
    rw [hcs.count]
    exact List.length_take_of_le hk
  rw [procBlock_rpOut, List.length_append, List.length_cons, ConvSet.procAll_output_length htake, hcs.count]
  omega

/-- Settles O26: a header word, then the samples of every channel or the overlap of one. -/
theorem responsesHaveTheirLength : Obligations.ResponsesHaveTheirLength := by
  intro s t cs hinv _ hpend hset
  have hcs : cs.Ok s.nch := hinv.cset cs hset
  constructor
  · intro m hm hmb hx
    have hk : s.nch * m ≤ s.rpIn.length := (exec_realTime rfl hx).1
    rw [exec_proc_ready hx hpend hset, if_neg (by omega), procBlock_rpOut_length hcs hk]
  · intro c hc hx
    rw [exec_flush_ready hx hpend hset hc, State.answer_rp_rpOut, List.length_append, List.length_cons,
      hcs.flushChannel_length hc]
    omega

end Sys2Proof.Machine
end

section
/-! R79, R160, R172: when a sequencer has a step, and what the machine answers where neither has. -/

namespace Sys2Proof.Machine

/-- A statement about every port is one about each of the two. -/
theorem forall_port_iff {P : Port → Prop} : (∀ p, P p) ↔ P .rp ∧ P .cp :=
  ⟨fun h => ⟨h .rp, h .cp⟩, fun ⟨hrp, hcp⟩ p => by cases p <;> assumption⟩

theorem exists_port_iff {P : Port → Prop} : (∃ p, P p) ↔ P .rp ∨ P .cp :=
  ⟨fun ⟨p, hp⟩ => by cases p <;> simp [hp], fun h => h.elim (⟨.rp, ·⟩) (⟨.cp, ·⟩)⟩

/-! A whole command on a port (R160). -/

theorem hasCommand_iff (p : Port) (s : State) :
    s.hasCommand p = true ↔ (∃ why rop k, s.fetch p = .illegal why rop k) ∨
      ∃ (i : Instr) (k : Nat), s.fetch p = .command i k ∧ k + payloadWords s.nch i ≤ (s.inStream p).length := by
  unfold State.hasCommand
  cases hfetch : s.fetch p with
  | incomplete => simp
  | illegal why rop k => simp
  | command i k =>
    have hheader : k ≤ (s.inStream p).length := (decode_command hfetch).2.1
    simp only [hasAtLeast_iff, List.length_drop, Decoded.command.injEq, reduceCtorEq, exists_false, false_or]
    constructor
    · intro hpayload
      exact ⟨i, k, ⟨rfl, rfl⟩, by omega⟩
    · rintro ⟨_, _, ⟨rfl, rfl⟩, hwhole⟩
      omega

theorem hasCommand_eq_false_iff (p : Port) (s : State) : s.hasCommand p = false ↔ s.lacksCommand p := by
  rw [← Bool.not_eq_true, hasCommand_iff, State.lacksCommand]
  cases hfetch : s.fetch p with
  | incomplete => simp
  | illegal why rop k => simp
  | command i k => simp

theorem canStep_cp_iff (s : State) :
    s.canStep .cp = true ↔ (∃ pd : Pending, s.pend = some pd) ∨ s.hasCommand .cp = true := by
  simp only [State.canStep, Bool.or_eq_true, rebuilding_eq_true_iff]

/-- Neither sequencer has a step exactly with no build in progress and no whole command on a port. -/
theorem canStep_eq_false_iff (s : State) :
    s.canStep .rp = false ∧ s.canStep .cp = false ↔ s.pend = none ∧ ∀ p, s.lacksCommand p := by
  simp only [State.canStep, Bool.or_eq_false_iff, rebuilding_eq_false_iff, hasCommand_eq_false_iff, forall_port_iff]
  exact and_left_comm

/-- An empty stream holds no command. -/
theorem lacksCommand_of_nil {p : Port} {s : State} (h : s.inStream p = []) : s.lacksCommand p := by
  left
  rw [State.fetch, h]
  rfl

/-! A sequencer that has a step takes it. -/

/-- A command with its payload on its port's stream runs, a build only with no other in progress (R160, R167). -/
theorem exec_runs {i : Instr} {s : State} (hfault : s.fault = 0#4) (hpend : i.port = .cp → s.pend = none)
    (hk : payloadWords s.nch i ≤ (s.inStream i.port).length) : ∃ t, exec i s = .next t := by
  cases i with
  | query | select | reset | flush | proc =>
    rw [exec_eq_realTimeCommand rfl]
    exact ⟨_, realTimeCommand_runs _ s _ hfault hk⟩
  | build n b => exact ⟨_, controlCommand_runs n s _ hfault (hpend rfl) hk⟩
  | buildk n b ord => exact ⟨_, controlCommand_runs n s _ hfault (hpend rfl) hk⟩

theorem State.recv_inStream (p : Port) (k : Nat) (s : State) : (s.recv p k).inStream p = (s.inStream p).drop k := by
  cases p <;> rfl

theorem runCommand_of_hasCommand {p : Port} {s : State} (hfault : s.fault = 0#4) (hpend : p = .cp → s.pend = none)
    (h : s.hasCommand p = true) : ∃ t, runCommand p s = .next t := by
  rcases (hasCommand_iff p s).1 h with ⟨why, rop, k, hfetch⟩ | ⟨i, k, hfetch, hwhole⟩
  · exact ⟨_, runCommand_illegal hfetch⟩
  · obtain rfl : i.port = p := (decode_command hfetch).1
    rw [runCommand_command hfetch]
    refine exec_runs (by simpa using hfault) (by simpa using hpend) ?_
    rw [State.recv_inStream, List.length_drop, State.recv_nch]
    omega

theorem agentStep_of_canStep {p : Port} {s : State} (hfault : s.fault = 0#4) (h : s.canStep p = true) :
    ∃ t, agentStep p s = .next t := by
  cases p with
  | rp => exact runCommand_of_hasCommand hfault (fun hp => by cases hp) h
  | cp =>
    cases hpend : s.pend with
    | some pd => exact ⟨_, agentStep_commits hpend⟩
    | none =>
      rw [agentStep_runs fun _ => hpend]
      have hcommand : s.hasCommand .cp = true := by simpa [canStep_cp_iff, hpend] using h
      exact runCommand_of_hasCommand hfault (fun _ => hpend) hcommand

/-- Where a sequencer has a step, one of them moves (R58). -/
theorem State.exists_moves {p : Port} {s : State} (hfault : s.fault = 0#4) (h : s.canStep p = true) :
    ∃ q u, s.moves q u := by
  cases hother : s.canStep (otherPort p) with
  | false => exact ⟨p, s, hfault, h, .inl ⟨hother, rfl⟩⟩
  | true =>
    cases p with
    | rp => exact ⟨_, _, State.moves_of_choose hfault h hother rfl⟩
    | cp => exact ⟨_, _, State.moves_of_choose hfault hother h rfl⟩

/-! The four answers of the step (R160, R172). -/

theorem step_of_faulted {s : State} (h : s.faulted) : step s = .fault .halted := if_neg h

theorem step_of_canStep {p : Port} {s : State} (hfault : s.fault = 0#4) (h : s.canStep p = true) :
    ∃ t, step s = .next t := by
  obtain ⟨q, u, hmoves⟩ := State.exists_moves hfault h
  have hu : u.fault = 0#4 ∧ u.canStep q = true := by
    rcases (step_of_moves hmoves).2 with rfl | rfl
    · exact ⟨hfault, hmoves.2.1⟩
    · rw [State.choose_fault, choose_canStep]
      exact ⟨hfault, hmoves.2.1⟩
  rw [(step_of_moves hmoves).1]
  exact agentStep_of_canStep hu.1 hu.2

theorem step_of_not_canStep {s : State} (hfault : s.fault = 0#4) (hpend : s.pend = none)
    (hlacks : ∀ p, s.lacksCommand p) :
    step s = .fault (if s.rpIn.isEmpty && s.cpIn.isEmpty then .runOver else .incompleteCommand) := by
  obtain ⟨hrp, hcp⟩ := (canStep_eq_false_iff s).2 ⟨hpend, hlacks⟩
  simp only [step, machineStep, if_pos hfault, hrp, hcp]

theorem step_of_over {s : State} (h : s.over) : step s = .fault .runOver := by
  obtain ⟨hfault, hpend, hrp, hcp⟩ := h
  have hlacks : ∀ p, s.lacksCommand p := forall_port_iff.2 ⟨lacksCommand_of_nil hrp, lacksCommand_of_nil hcp⟩
  rw [step_of_not_canStep hfault hpend hlacks, hrp, hcp]
  rfl

theorem step_of_stuck {s : State} (h : s.stuck) : step s = .fault .incompleteCommand := by
  obtain ⟨hfault, hpend, hlacks, hwords⟩ := h
  rw [step_of_not_canStep hfault hpend hlacks, if_neg (by simpa using hwords)]

/-- Every state is a fault state, or over, or stuck, or a sequencer has a step (R172). -/
theorem State.end_or_canStep (s : State) :
    s.faulted ∨ s.over ∨ s.stuck ∨ s.fault = 0#4 ∧ ∃ p, s.canStep p = true := by
  by_cases hfault : s.fault = 0#4
  · by_cases hstep : ∃ p, s.canStep p = true
    · exact .inr (.inr (.inr ⟨hfault, hstep⟩))
    · have hnone : ∀ p, s.canStep p = false := by simpa using hstep
      obtain ⟨hpend, hlacks⟩ := (canStep_eq_false_iff s).1 ⟨hnone .rp, hnone .cp⟩
      by_cases hempty : s.rpIn = [] ∧ s.cpIn = []
      · exact .inr (.inl ⟨hfault, hpend, hempty⟩)
      · exact .inr (.inr (.inl ⟨hfault, hpend, hlacks, hempty⟩))
  · exact .inl hfault

/-- The answer of the step to each kind of state. -/
inductive StepAnswer (s : State) : Host.Outcome State Fault Refusal → Prop
  | halted (h : s.faulted) : StepAnswer s (.fault .halted)
  | runOver (h : s.over) : StepAnswer s (.fault .runOver)
  | incompleteCommand (h : s.stuck) : StepAnswer s (.fault .incompleteCommand)
  | next (t : State) (hfault : s.fault = 0#4) (hstep : ∃ p, s.canStep p = true) : StepAnswer s (.next t)

theorem step_answer (s : State) : StepAnswer s (step s) := by
  rcases s.end_or_canStep with h | h | h | ⟨hfault, p, hp⟩
  · exact step_of_faulted h ▸ .halted h
  · exact step_of_over h ▸ .runOver h
  · exact step_of_stuck h ▸ .incompleteCommand h
  · obtain ⟨t, ht⟩ := step_of_canStep hfault hp
    exact ht ▸ .next t hfault ⟨p, hp⟩

theorem step_eq_halted_iff (s : State) : step s = .fault .halted ↔ s.faulted :=
  ⟨fun h => match h ▸ step_answer s with | .halted hs => hs, step_of_faulted⟩

theorem step_eq_runOver_iff (s : State) : step s = .fault .runOver ↔ s.over :=
  ⟨fun h => match h ▸ step_answer s with | .runOver hs => hs, step_of_over⟩

theorem step_eq_incompleteCommand_iff (s : State) : step s = .fault .incompleteCommand ↔ s.stuck :=
  ⟨fun h => match h ▸ step_answer s with | .incompleteCommand hs => hs, step_of_stuck⟩

theorem step_next_iff (s : State) : (∃ t, step s = .next t) ↔ s.fault = 0#4 ∧ ∃ p, s.canStep p = true :=
  ⟨fun ⟨_, h⟩ => match h ▸ step_answer s with | .next _ hfault hstep => ⟨hfault, hstep⟩,
    fun ⟨hfault, _, hp⟩ => step_of_canStep hfault hp⟩

theorem stuck_iff (s : State) :
    s.stuck ↔ s.fault = 0#4 ∧ s.pend = none ∧ ¬ (s.rpIn = [] ∧ s.cpIn = []) ∧
      s.lacksCommand .rp ∧ s.lacksCommand .cp := by
  rw [State.stuck, forall_port_iff, and_comm (a := s.lacksCommand .rp ∧ s.lacksCommand .cp)]

/-- Settles O11: the three stops are the answers in the three kinds of state without a step. -/
theorem noStepIsHaltedOverOrStuck : Obligations.NoStepIsHaltedOverOrStuck := by
  intro s
  refine ⟨step_eq_halted_iff s, step_eq_runOver_iff s, (step_eq_incompleteCommand_iff s).trans (stuck_iff s), ?_, ?_⟩
  · exact fun h => nomatch h ▸ step_answer s
  · exact fun r h => nomatch h ▸ step_answer s

/-- Settles O58: a whole command on a port, or a build to commit, and the step where a sequencer has one. -/
theorem sequencerHasStepOnWholeCommand : Obligations.SequencerHasStepOnWholeCommand := by
  refine ⟨hasCommand_iff .rp, fun s => ?_, fun s => ?_, ?_⟩
  · rw [canStep_cp_iff, hasCommand_iff]
    rfl
  · rw [step_next_iff, exists_port_iff]
  · intros
    exact ⟨rfl, rfl, rfl, rfl, rfl, rfl, rfl⟩

end Sys2Proof.Machine
end

section
/-! R84, R112: a rounded sum or product is nearest to the exact one, ties to even (log 17). -/

namespace Sys2Proof.Machine

/-! The value of a finite pattern (R84). -/

/-- The magnitude of a finite pattern in units of `2^-149`. -/
def unitsMag (x : Sample) : Nat :=
  if expBits x = 0 then fracBits x else (2 ^ 23 + fracBits x) * 2 ^ (expBits x - 1)

theorem floatVal_of_finite {x : Sample} (h : f32Finite x = true) : floatVal x = .fin (signBit x) (unitsMag x) := by
  have hexp : expBits x ≠ 255 := by simpa [f32Finite] using h
  unfold floatVal unitsMag
  rw [if_neg hexp]
  split <;> rfl

theorem sampleUnits_of_finite {x : Sample} (h : f32Finite x = true) :
    sampleUnits x = signedMag (signBit x) (unitsMag x) := by
  rw [sampleUnits, floatVal_of_finite h]

theorem fracBits_lt (x : Sample) : fracBits x < 2 ^ 23 := Nat.mod_lt _ (by decide)

/-- From `2^(23+j)` units on, the last bit of a pattern weighs `2^j` units or more. -/
theorem dvd_unitsMag_or_lt (x : Sample) (j : Nat) : 2 ^ j ∣ unitsMag x ∨ 0 < j ∧ unitsMag x < 2 ^ 23 * 2 ^ j := by
  have hfrac := fracBits_lt x
  rcases Nat.eq_zero_or_pos j with rfl | hj
  · exact .inl (one_dvd _)
  · unfold unitsMag
    split
    case isTrue =>
      have : 1 ≤ 2 ^ j := Nat.one_le_two_pow
      exact .inr ⟨hj, by omega⟩
    case isFalse =>
      rcases Nat.lt_or_ge (expBits x - 1) j with hlt | hge
      · have hpow : 2 * 2 ^ (expBits x - 1) ≤ 2 ^ j := by
          rw [← Nat.pow_succ']
          exact Nat.pow_le_pow_right (by decide) hlt
        refine .inr ⟨hj, ?_⟩
        calc (2 ^ 23 + fracBits x) * 2 ^ (expBits x - 1)
            < (2 ^ 23 * 2) * 2 ^ (expBits x - 1) := by gcongr; omega
          _ = 2 ^ 23 * (2 * 2 ^ (expBits x - 1)) := Nat.mul_assoc ..
          _ ≤ 2 ^ 23 * 2 ^ j := Nat.mul_le_mul_left _ hpow
      · exact .inl (Dvd.dvd.mul_left (pow_dvd_pow 2 hge) _)

/-! The fields of a packed pattern. -/

theorem packSign_toNat {low : Nat} (neg : Bool) (h : low < 2 ^ 31) :
    (packSign neg low).toNat = low + if neg then 2 ^ 31 else 0 := by
  rw [packSign, BitVec.toNat_ofNat]
  cases neg <;> simp only [Bool.false_eq_true, if_true, if_false] <;> omega

theorem expBits_packSign {low : Nat} (neg : Bool) (h : low < 2 ^ 31) : expBits (packSign neg low) = low / 2 ^ 23 := by
  rw [expBits, packSign_toNat neg h]
  cases neg <;> simp only [Bool.false_eq_true, if_true, if_false] <;> omega

theorem fracBits_packSign {low : Nat} (neg : Bool) (h : low < 2 ^ 31) : fracBits (packSign neg low) = low % 2 ^ 23 := by
  rw [fracBits, packSign_toNat neg h]
  cases neg <;> simp only [Bool.false_eq_true, if_true, if_false] <;> omega

theorem signBit_packSign {low : Nat} (neg : Bool) (h : low < 2 ^ 31) : signBit (packSign neg low) = neg := by
  rw [signBit, packSign_toNat neg h]
  cases neg with
  | false => exact decide_eq_false (Nat.not_le_of_lt h)
  | true => exact decide_eq_true (Nat.le_add_left _ _)

theorem packSign_toNat_mod_two {low : Nat} (neg : Bool) (h : low < 2 ^ 31) :
    (packSign neg low).toNat % 2 = low % 2 := by
  rw [packSign_toNat neg h]
  cases neg <;> simp only [Bool.false_eq_true, if_true, if_false] <;> omega

theorem not_f32Finite_packInf (neg : Bool) : f32Finite (packInf neg) = false := by cases neg <;> decide

/-- The carry out of the fraction goes into the exponent: `j` binades and `q` of the last bit's weight are `q * 2^j`
units. -/
theorem unitsMag_packSign {j q : Nat} (neg : Bool) (hq : q ≤ 2 ^ 24) (hnormal : 0 < j → 2 ^ 23 ≤ q)
    (hlow : j * 2 ^ 23 + q < 2 ^ 31) : unitsMag (packSign neg (j * 2 ^ 23 + q)) = q * 2 ^ j := by
  rw [unitsMag, expBits_packSign neg hlow, fracBits_packSign neg hlow]
  rcases Nat.lt_or_ge q (2 ^ 23) with hsub | hge
  · obtain rfl : j = 0 := by
      by_contra hj
      exact absurd (hnormal (Nat.pos_of_ne_zero hj)) (Nat.not_le_of_lt hsub)
    rw [if_pos (by omega), Nat.pow_zero]
    omega
  · rw [if_neg (by omega)]
    rcases Nat.lt_or_eq_of_le hq with hlt | rfl
    · have hexp : (j * 2 ^ 23 + q) / 2 ^ 23 - 1 = j := by omega
      have hfrac : 2 ^ 23 + (j * 2 ^ 23 + q) % 2 ^ 23 = q := by omega
      rw [hexp, hfrac]
    · have hexp : (j * 2 ^ 23 + 2 ^ 24) / 2 ^ 23 - 1 = j + 1 := by omega
      have hfrac : 2 ^ 23 + (j * 2 ^ 23 + 2 ^ 24) % 2 ^ 23 = 2 ^ 23 := by omega
      rw [hexp, hfrac, Nat.pow_succ']
      ring

/-! Rounding to the nearest integer. -/

theorem roundShift_eq (n t : Nat) :
    roundShift n t =
      if 2 ^ t < 2 * (n % 2 ^ t) ∨ 2 * (n % 2 ^ t) = 2 ^ t ∧ n / 2 ^ t % 2 = 1 then n / 2 ^ t + 1 else n / 2 ^ t := rfl

theorem roundShift_bounds (n t : Nat) : n / 2 ^ t ≤ roundShift n t ∧ roundShift n t ≤ n / 2 ^ t + 1 := by
  rw [roundShift_eq]
  split <;> omega

/-- `roundShift` is nearest to `n / 2^t` among all integers, and even on a tie. -/
theorem roundShift_nearest (n t : Nat) (k : Int) :
    |(roundShift n t : Int) * 2 ^ t - n| ≤ |k * 2 ^ t - n| ∧
      (|(roundShift n t : Int) * 2 ^ t - n| = |k * 2 ^ t - n| → k ≠ roundShift n t → roundShift n t % 2 = 0) := by
  obtain ⟨P, hP⟩ : ∃ P : Nat, P = 2 ^ t := ⟨_, rfl⟩
  obtain ⟨q, hq⟩ : ∃ q : Nat, q = n / P := ⟨_, rfl⟩
  obtain ⟨r, hr⟩ : ∃ r : Nat, r = n % P := ⟨_, rfl⟩
  have hpos : 0 < P := hP ▸ Nat.two_pow_pos t
  have hrP : r < P := hr ▸ Nat.mod_lt _ hpos
  have hn : (n : Int) = q * P + r := by
    have := Nat.div_add_mod' n P
    rw [← hq, ← hr] at this
    exact_mod_cast this.symm
  have hround : roundShift n t = if P < 2 * r ∨ 2 * r = P ∧ q % 2 = 1 then q + 1 else q := by
    rw [hr, hq, hP, roundShift_eq]
  have hcast : (2 : Int) ^ t = P := by exact_mod_cast hP.symm
  have hk : k * 2 ^ t - n = (k - q) * P - r := by rw [hcast, hn]; ring
  have hbelow : k < q → (k - q) * P ≤ -P := fun h => by nlinarith
  have hfloor : k = q → (k - q) * P = 0 := fun h => by rw [h]; ring
  have hceil : k = q + 1 → (k - q) * P = P := fun h => by rw [h]; ring
  have habove : q + 1 < k → 2 * P ≤ (k - q) * P := fun h => by nlinarith
  rw [hk, hround, hcast, hn]
  split
  case isTrue hup =>
    have hself : ((q + 1 : Nat) : Int) * P - (q * P + r) = P - r := by push_cast; ring
    rw [hself, abs_eq_max_neg, abs_eq_max_neg]
    omega
  case isFalse hdown =>
    have hself : (q : Int) * P - (q * P + r) = -r := by ring
    rw [hself, abs_eq_max_neg, abs_eq_max_neg]
    omega

/-- Against a value on the grid of `2^j` units, or one below the binade of `n / 2^d`. -/
theorem roundShift_nearest_units {n d j : Nat} (hbinade : 0 < j → 2 ^ 23 * 2 ^ (d + j) ≤ n) {u : Int}
    (hu : (2 : Int) ^ j ∣ u ∨ 0 < j ∧ u < 2 ^ 23 * 2 ^ j) :
    |(roundShift n (d + j) * 2 ^ j : Int) * 2 ^ d - n| ≤ |u * 2 ^ d - n| ∧
      (|(roundShift n (d + j) * 2 ^ j : Int) * 2 ^ d - n| = |u * 2 ^ d - n| → u ≠ roundShift n (d + j) * 2 ^ j →
        roundShift n (d + j) % 2 = 0) := by
  have hpow : ∀ v : Int, v * 2 ^ j * 2 ^ d = v * 2 ^ (d + j) := fun v => by ring
  rw [hpow]
  rcases hu with ⟨k, rfl⟩ | ⟨hj, hlt⟩
  · rw [mul_comm (2 ^ j) k, hpow]
    obtain ⟨hle, htie⟩ := roundShift_nearest n (d + j) k
    exact ⟨hle, fun heq hne => htie heq fun hk => hne (by rw [hk])⟩
  · have hcorner : (2 ^ 23 : Int) * 2 ^ (d + j) ≤ n := by exact_mod_cast hbinade hj
    have hbelow : u * 2 ^ d < 2 ^ 23 * 2 ^ (d + j) := by
      rw [← hpow]
      exact mul_lt_mul_of_pos_right hlt (by positivity)
    have hstrict : |(roundShift n (d + j) : Int) * 2 ^ (d + j) - n| < |u * 2 ^ d - n| := by
      refine lt_of_le_of_lt (roundShift_nearest n (d + j) (2 ^ 23)).1 ?_
      rw [abs_of_nonpos (by linarith), abs_of_neg (by linarith)]
      linarith
    exact ⟨hstrict.le, fun heq => absurd heq hstrict.ne⟩

/-! Rounding to a pattern. -/

/-- Above the subnormals, the binade of `n / 2^d` starts at `2^(23+j)` units. -/
theorem roundBinade_floor {n d : Nat} (hj : 0 < roundBinade n d) : 2 ^ 23 * 2 ^ (d + roundBinade n d) ≤ n := by
  unfold roundBinade at *
  have hlog : 23 + (d + (Nat.log2 n - d - 23)) = Nat.log2 n := by omega
  have hn : n ≠ 0 := by
    rintro rfl
    simp at hj
  rw [← Nat.pow_add, hlog]
  exact Nat.log2_self_le hn

theorem roundBinade_ceil (n d : Nat) : n < 2 ^ 24 * 2 ^ (d + roundBinade n d) := by
  refine Nat.lt_of_lt_of_le Nat.lt_log2_self ?_
  rw [← Nat.pow_add]
  apply Nat.pow_le_pow_right (by decide)
  unfold roundBinade
  omega

theorem roundShift_binade_le (n d : Nat) : roundShift n (d + roundBinade n d) ≤ 2 ^ 24 :=
  (roundShift_bounds _ _).2.trans (Nat.div_lt_of_lt_mul (Nat.mul_comm .. ▸ roundBinade_ceil n d))

theorem le_roundShift_binade {n d : Nat} (hj : 0 < roundBinade n d) : 2 ^ 23 ≤ roundShift n (d + roundBinade n d) :=
  ((Nat.le_div_iff_mul_le (Nat.two_pow_pos _)).2 (roundBinade_floor hj)).trans (roundShift_bounds _ _).1

/-- What a finite result of the rounding stands for, and its last bit. -/
theorem roundPack_finite {neg : Bool} {n d : Nat} (h : f32Finite (roundPack neg n d) = true) :
    sampleUnits (roundPack neg n d) = signedMag neg (roundShift n (d + roundBinade n d) * 2 ^ roundBinade n d) ∧
      (roundPack neg n d).toNat % 2 = roundShift n (d + roundBinade n d) % 2 := by
  have hpack : roundPack neg n d =
      if 255 * 2 ^ 23 ≤ roundBinade n d * 2 ^ 23 + roundShift n (d + roundBinade n d) then packInf neg
      else packSign neg (roundBinade n d * 2 ^ 23 + roundShift n (d + roundBinade n d)) := rfl
  rw [sampleUnits_of_finite h]
  rw [hpack] at h ⊢
  split at h
  case isTrue => simp [not_f32Finite_packInf] at h
  case isFalse hlow =>
    have hlt : roundBinade n d * 2 ^ 23 + roundShift n (d + roundBinade n d) < 2 ^ 31 := by omega
    rw [if_neg hlow, signBit_packSign neg hlt, packSign_toNat_mod_two neg hlt,
      unitsMag_packSign neg (roundShift_binade_le n d) le_roundShift_binade hlt]
    exact ⟨rfl, by omega⟩

/-- `r` is nearest to `v / 2^d` units among the finite patterns, with an even last bit on a tie. -/
def NearestEven (r : Sample) (v : Int) (d : Nat) : Prop :=
  ∀ w : Sample, f32Finite w = true →
    |sampleUnits r * 2 ^ d - v| ≤ |sampleUnits w * 2 ^ d - v| ∧
      (|sampleUnits r * 2 ^ d - v| = |sampleUnits w * 2 ^ d - v| → sampleUnits w ≠ sampleUnits r → r.toNat % 2 = 0)

/-- A finite pattern is on the grid of `2^j` units, or nearer to zero than the binade that starts the grid. -/
theorem sampleUnits_grid {w : Sample} (hw : f32Finite w = true) (j : Nat) :
    (2 : Int) ^ j ∣ sampleUnits w ∨ 0 < j ∧ |sampleUnits w| < 2 ^ 23 * 2 ^ j := by
  have habs : |sampleUnits w| = unitsMag w := by
    rw [sampleUnits_of_finite hw]
    cases signBit w <;> simp [signedMag]
  rw [habs, ← dvd_abs, habs]
  exact_mod_cast dvd_unitsMag_or_lt w j

theorem roundPack_nearestEven {neg : Bool} {n d : Nat} (h : f32Finite (roundPack neg n d) = true) :
    NearestEven (roundPack neg n d) (signedMag neg n) d := by
  intro w hw
  obtain ⟨hunits, hbit⟩ := roundPack_finite h
  have hgrid := sampleUnits_grid hw (roundBinade n d)
  rw [hunits, hbit]
  cases neg with
  | false =>
    have hu := hgrid.imp_right (And.imp_right fun hlt => (abs_lt.1 hlt).2)
    simpa [signedMag] using roundShift_nearest_units roundBinade_floor hu
  | true =>
    have hu := hgrid.imp (dvd_neg (α := Int)).2 (And.imp_right fun hlt => neg_lt.1 (abs_lt.1 hlt).1)
    have hreflect : ∀ v : Int, |v * 2 ^ d - signedMag true n| = |-v * 2 ^ d - n| := fun v => by
      rw [← abs_neg]
      congr 1
      simp only [signedMag, if_true]
      ring
    rw [hreflect, hreflect]
    simpa [signedMag, neg_eq_iff_eq_neg] using roundShift_nearest_units roundBinade_floor hu

/-! The two operations (R112). -/

theorem addFin_eq_roundPack (n1 : Bool) (m1 : Nat) (n2 : Bool) (m2 : Nat) :
    ∃ neg n, addFin n1 m1 n2 m2 = roundPack neg n 0 ∧ signedMag n1 m1 + signedMag n2 m2 = signedMag neg n := by
  unfold addFin
  generalize signedMag n1 m1 + signedMag n2 m2 = v
  by_cases hv : v = 0
  · exact ⟨n1 && n2, 0, by simp [hv, roundPack, roundBinade, roundShift], by simp [hv, signedMag]⟩
  · refine ⟨decide (v < 0), v.natAbs, if_neg hv, ?_⟩
    simp only [signedMag, decide_eq_true_eq]
    split <;> omega

theorem signedMag_mul (a b : Bool) (m k : Nat) : signedMag (a != b) (m * k) = signedMag a m * signedMag b k := by
  cases a <;> cases b <;> simp [signedMag]

theorem f32Add_nearestEven {x y : Sample} (hx : f32Finite x = true) (hy : f32Finite y = true)
    (h : f32Finite (f32Add x y) = true) : NearestEven (f32Add x y) (sampleUnits x + sampleUnits y) 0 := by
  have hadd : f32Add x y = addFin (signBit x) (unitsMag x) (signBit y) (unitsMag y) := by
    simp only [f32Add, floatVal_of_finite hx, floatVal_of_finite hy]
  obtain ⟨neg, n, hpack, hsum⟩ := addFin_eq_roundPack (signBit x) (unitsMag x) (signBit y) (unitsMag y)
  rw [hadd, hpack] at h ⊢
  rw [sampleUnits_of_finite hx, sampleUnits_of_finite hy, hsum]
  exact roundPack_nearestEven h

theorem f32Mul_nearestEven {x y : Sample} (hx : f32Finite x = true) (hy : f32Finite y = true)
    (h : f32Finite (f32Mul x y) = true) : NearestEven (f32Mul x y) (sampleUnits x * sampleUnits y) 149 := by
  have hmul : f32Mul x y = roundPack (signBit x != signBit y) (unitsMag x * unitsMag y) 149 := by
    simp only [f32Mul, floatVal_of_finite hx, floatVal_of_finite hy]
  rw [hmul] at h ⊢
  rw [sampleUnits_of_finite hx, sampleUnits_of_finite hy, ← signedMag_mul]
  exact roundPack_nearestEven h

/-- Settles O47: both operations round an exact number of units to the nearest pattern. -/
theorem roundingIsToNearestEven : Obligations.RoundingIsToNearestEven := by
  intro x y w hx hy hw
  refine ⟨fun h => ?_, fun h => f32Mul_nearestEven hx hy h w hw⟩
  simpa only [pow_zero, mul_one] using f32Add_nearestEven hx hy h w hw

end Sys2Proof.Machine
end

section
/-! R108, R112, R135: infinities, NaNs and zeros of either sign in the binary32 operations (log 3, log 17). -/

namespace Sys2Proof.Machine

/-! The fields of a pattern, and the change of sign (R84, R138). -/

theorem expBits_eq_extractLsb' (x : Sample) : expBits x = (x.extractLsb' 23 8).toNat := by
  rw [BitVec.extractLsb'_toNat, Nat.shiftRight_eq_div_pow, expBits]

theorem fracBits_eq_extractLsb' (x : Sample) : fracBits x = (x.extractLsb' 0 23).toNat := by
  rw [BitVec.extractLsb'_toNat, Nat.shiftRight_zero, fracBits]

/-- The sign is no part of the exponent. -/
@[simp] theorem expBits_f32Neg (x : Sample) : expBits (f32Neg x) = expBits x := by
  have hmask : (0x80000000#32).extractLsb' 23 8 = 0#8 := by decide
  rw [expBits_eq_extractLsb', expBits_eq_extractLsb', f32Neg, BitVec.extractLsb'_xor, hmask, BitVec.xor_zero]

/-- The sign is no part of the fraction. -/
@[simp] theorem fracBits_f32Neg (x : Sample) : fracBits (f32Neg x) = fracBits x := by
  have hmask : (0x80000000#32).extractLsb' 0 23 = 0#23 := by decide
  rw [fracBits_eq_extractLsb', fracBits_eq_extractLsb', f32Neg, BitVec.extractLsb'_xor, hmask, BitVec.xor_zero]

/-! NaN (R108). -/

theorem f32IsNan_iff (x : Sample) : f32IsNan x = true ↔ expBits x = 255 ∧ fracBits x ≠ 0 := by
  simp [f32IsNan]

theorem floatVal_of_isNan {x : Sample} (h : f32IsNan x = true) : floatVal x = .nan := by
  obtain ⟨hexp, hfrac⟩ := (f32IsNan_iff x).1 h
  rw [floatVal, if_pos hexp, if_neg hfrac]

theorem f32IsNan_f32Neg {x : Sample} (h : f32IsNan x = true) : f32IsNan (f32Neg x) = true := by
  rw [f32IsNan_iff, expBits_f32Neg, fracBits_f32Neg]
  exact (f32IsNan_iff x).1 h

/-- The pattern of log 3 is a NaN. -/
theorem f32IsNan_nanResult : f32IsNan nanResult = true := by decide

theorem f32IsNan_f32Add {x y : Sample} (h : f32IsNan x = true ∨ f32IsNan y = true) :
    f32IsNan (f32Add x y) = true := by
  suffices f32Add x y = nanResult from this ▸ f32IsNan_nanResult
  rcases h with hx | hy
  · simp only [f32Add, floatVal_of_isNan hx]
  · cases hx : floatVal x <;> simp only [f32Add, hx, floatVal_of_isNan hy]

theorem f32IsNan_f32Sub {x y : Sample} (h : f32IsNan x = true ∨ f32IsNan y = true) :
    f32IsNan (f32Sub x y) = true :=
  f32IsNan_f32Add (h.imp_right f32IsNan_f32Neg)

theorem f32IsNan_f32Mul {x y : Sample} (h : f32IsNan x = true ∨ f32IsNan y = true) :
    f32IsNan (f32Mul x y) = true := by
  suffices f32Mul x y = nanResult from this ▸ f32IsNan_nanResult
  rcases h with hx | hy
  · simp only [f32Mul, floatVal_of_isNan hx]
  · cases hx : floatVal x <;> simp only [f32Mul, hx, floatVal_of_isNan hy]

/-! Zeros of either sign (R135, U7). -/

theorem f32IsZero_iff (x : Sample) : f32IsZero x = true ↔ expBits x = 0 ∧ fracBits x = 0 := by
  simp only [f32IsZero, beq_iff_eq, expBits, fracBits]
  omega

theorem floatVal_of_isZero {x : Sample} (h : f32IsZero x = true) : floatVal x = .fin (signBit x) 0 := by
  obtain ⟨hexp, hfrac⟩ := (f32IsZero_iff x).1 h
  simp [floatVal, hexp, hfrac]

theorem f32IsZero_packSign_zero (neg : Bool) : f32IsZero (packSign neg 0) = true := by
  cases neg <;> decide

theorem f32IsZero_f32Neg {x : Sample} (h : f32IsZero x = true) : f32IsZero (f32Neg x) = true := by
  rw [f32IsZero_iff, expBits_f32Neg, fracBits_f32Neg]
  exact (f32IsZero_iff x).1 h

theorem roundPack_zero (neg : Bool) (d : Nat) : roundPack neg 0 d = packSign neg 0 := by
  simp [roundPack, roundBinade, roundShift]

theorem f32IsZero_f32Add {x y : Sample} (hx : f32IsZero x = true) (hy : f32IsZero y = true) :
    f32IsZero (f32Add x y) = true := by
  have hadd : f32Add x y = packSign (signBit x && signBit y) 0 := by
    simp [f32Add, addFin, signedMag, floatVal_of_isZero hx, floatVal_of_isZero hy]
  rw [hadd, f32IsZero_packSign_zero]

theorem f32IsZero_f32Sub {x y : Sample} (hx : f32IsZero x = true) (hy : f32IsZero y = true) :
    f32IsZero (f32Sub x y) = true :=
  f32IsZero_f32Add hx (f32IsZero_f32Neg hy)

theorem f32IsZero_f32Mul {x y : Sample} (hx : f32IsZero x = true) (hy : f32Finite y = true) :
    f32IsZero (f32Mul x y) = true := by
  have hmul : f32Mul x y = packSign (signBit x != signBit y) 0 := by
    simp only [f32Mul, floatVal_of_isZero hx, floatVal_of_finite hy, Nat.zero_mul, roundPack_zero]
  rw [hmul, f32IsZero_packSign_zero]

/-! Infinities (R108). -/

theorem floatVal_posInf : floatVal 0x7F800000#32 = .inf false := by decide

theorem floatVal_negInf : floatVal 0xFF800000#32 = .inf true := by decide

/-- Settles O48: a NaN operand, `0 * inf` and `inf - inf` all take an arm that gives the one NaN pattern. -/
theorem nanPropagates : Obligations.NanPropagates := by
  refine ⟨fun x y h => ?_, fun x hx => ?_, by decide⟩
  · exact ⟨f32IsNan_f32Add h, f32IsNan_f32Sub h, f32IsNan_f32Mul h, f32IsNan_f32Mul h.symm⟩
  · have hright : f32Mul x 0x7F800000#32 = nanResult := by
      simp only [f32Mul, floatVal_of_isZero hx, floatVal_posInf, if_true]
    have hleft : f32Mul 0xFF800000#32 x = nanResult := by
      simp only [f32Mul, floatVal_of_isZero hx, floatVal_negInf, if_true]
    rw [hright, hleft]
    exact ⟨f32IsNan_nanResult, f32IsNan_nanResult⟩

end Sys2Proof.Machine
end

section
/-! R101 to R106: the exact transform pair (R12) is Mathlib's discrete Fourier transform on `ZMod K`. -/

namespace Sys2Proof.Machine

open Finset

/-! Sums over residues and lists. -/

theorem sum_zmod_eq_sum_range {N : ℕ} [NeZero N] {M : Type*} [AddCommMonoid M] (f : ZMod N → M) :
    ∑ j, f j = ∑ n ∈ range N, f n :=
  sum_nbij' ZMod.val Nat.cast (by simp [ZMod.val_lt]) (by simp) (by simp)
    (fun n hn => ZMod.val_natCast_of_lt (mem_range.1 hn)) (by simp)

/-! Fourier analysis on `ZMod N` that Mathlib does not state. -/

/-- The transform of a convolution is the product of the transforms (R103). -/
theorem dft_convolution {N : ℕ} [NeZero N] (Φ Ψ : ZMod N → ℂ) (k : ZMod N) :
    ZMod.dft (fun i => ∑ j, Φ j * Ψ (i - j)) k = ZMod.dft Φ k * ZMod.dft Ψ k := by
  simp only [ZMod.dft_apply, smul_eq_mul, mul_sum, sum_mul]
  rw [sum_comm]
  conv_rhs => rw [sum_comm]
  refine sum_congr rfl fun j _ => ?_
  rw [← Equiv.sum_comp (Equiv.addRight j)]
  refine sum_congr rfl fun i _ => ?_
  have hchar : ZMod.stdAddChar (-((i + j) * k)) = ZMod.stdAddChar (-(i * k)) * ZMod.stdAddChar (-(j * k)) := by
    rw [← AddChar.map_add_eq_mul]
    congr 1
    ring
  simp only [Equiv.coe_addRight, hchar, add_sub_cancel_right]
  ring

/-- Parseval's identity (R106). -/
theorem sum_normSq_dft {N : ℕ} [NeZero N] (Φ : ZMod N → ℂ) :
    ∑ k, Complex.normSq (ZMod.dft Φ k) = N * ∑ j, Complex.normSq (Φ j) := by
  have hN : (N : ℂ) ≠ 0 := NeZero.ne _
  have hconj : ∀ k, (starRingEnd ℂ) (ZMod.dft Φ k) = ∑ j, ZMod.stdAddChar (k * j) * (starRingEnd ℂ) (Φ j) := by
    intro k
    simp only [ZMod.dft_apply, smul_eq_mul, map_sum, map_mul, AddChar.map_neg_eq_conj, Complex.conj_conj, mul_comm k]
  have hinv : ∀ j, ∑ k, ZMod.stdAddChar (k * j) * ZMod.dft Φ k = N * Φ j := by
    intro j
    have h := ZMod.invDFT_apply (ZMod.dft Φ) j
    rw [LinearEquiv.symm_apply_apply] at h
    simp only [h, smul_eq_mul, mul_inv_cancel_left₀ hN]
  apply Complex.ofReal_injective
  push_cast
  calc ∑ k, (Complex.normSq (ZMod.dft Φ k) : ℂ)
      = ∑ k, ∑ j, (starRingEnd ℂ) (Φ j) * (ZMod.stdAddChar (k * j) * ZMod.dft Φ k) := by
        refine sum_congr rfl fun k _ => ?_
        rw [← Complex.mul_conj, hconj, mul_sum]
        exact sum_congr rfl fun j _ => by ring
    _ = ∑ j, (starRingEnd ℂ) (Φ j) * (N * Φ j) := by
        rw [sum_comm]
        exact sum_congr rfl fun j _ => by rw [← mul_sum, hinv]
    _ = N * ∑ j, (Complex.normSq (Φ j) : ℂ) := by
        rw [mul_sum]
        exact sum_congr rfl fun j _ => by rw [← Complex.mul_conj]; ring

/-! A list of pairs as a function on `ZMod K` (R101, R104). -/

/-- The element at each index below `K = 2^ord`, 0 past the end. -/
noncomputable def sequenceAt (ord : ℕ) (a : List (ℝ × ℝ)) (k : ZMod (2 ^ ord)) : ℂ := toComplex (a.getD k.val (0, 0))

@[simp] theorem toComplex_ofComplex (z : ℂ) : toComplex (ofComplex z) = z := rfl

@[simp] theorem ofComplex_toComplex (z : ℝ × ℝ) : ofComplex (toComplex z) = z := rfl

theorem toComplex_ofReal (r : ℝ) : toComplex (r, 0) = r := rfl

theorem normSq_toComplex (z : ℝ × ℝ) : Complex.normSq (toComplex z) = z.1 ^ 2 + z.2 ^ 2 := by
  rw [Complex.normSq_apply, toComplex, sq, sq]

theorem toComplex_complexMul (z w : ℝ × ℝ) : toComplex (complexMul ideal z w) = toComplex z * toComplex w :=
  Complex.ext (by simp [toComplex, complexMul, ideal]) (by simp [toComplex, complexMul, ideal])

theorem sequenceAt_natCast {ord n : ℕ} (a : List (ℝ × ℝ)) (hn : n < 2 ^ ord) :
    sequenceAt ord a n = toComplex (a.getD n (0, 0)) := by
  rw [sequenceAt, ZMod.val_natCast_of_lt hn]

/-- A list made of the values of a function on `ZMod K`. -/
theorem sequenceAt_map_range {ord : ℕ} {f : ℕ → ℝ × ℝ} {Φ : ZMod (2 ^ ord) → ℂ}
    (h : ∀ n < 2 ^ ord, toComplex (f n) = Φ n) : sequenceAt ord ((List.range (2 ^ ord)).map f) = Φ := by
  funext k
  have hk : k.val < 2 ^ ord := k.val_lt
  have hget := h k.val hk
  rw [ZMod.natCast_zmod_val] at hget
  simp [sequenceAt, hk, hget]

/-- `K` elements are determined by their function. -/
theorem eq_of_sequenceAt_eq {ord : ℕ} {a b : List (ℝ × ℝ)} (ha : a.length = 2 ^ ord) (hb : b.length = 2 ^ ord)
    (h : sequenceAt ord a = sequenceAt ord b) : a = b := by
  refine List.ext_getElem (ha.trans hb.symm) fun n hna hnb => ?_
  have hn := congrFun h n
  rw [sequenceAt_natCast a (ha ▸ hna), sequenceAt_natCast b (ha ▸ hna)] at hn
  simpa [hna, hnb] using congrArg ofComplex hn

theorem sequenceAt_olaProduct (ord : ℕ) {s t : List (ℝ × ℝ)} (hs : s.length = 2 ^ ord) (ht : t.length = 2 ^ ord) :
    sequenceAt ord (olaProduct ideal s t) = sequenceAt ord t * sequenceAt ord s := by
  funext k
  have hk : k.val < 2 ^ ord := k.val_lt
  simp [sequenceAt, olaProduct, hs, ht, hk, toComplex_complexMul]

/-- The factor of the inverse transform is the standard character (R101). -/
theorem stdAddChar_natCast_mul (ord k n : ℕ) :
    ZMod.stdAddChar (k * n : ZMod (2 ^ ord)) = Complex.exp (2 * Real.pi * Complex.I * k * n / (2 ^ ord : ℕ)) := by
  have hchar := ZMod.stdAddChar_coe (N := 2 ^ ord) (k * n : ℤ)
  push_cast at hchar ⊢
  rw [hchar, mul_assoc _ (k : ℂ)]

theorem idealFwdAt_eq_dft (ord : ℕ) (a : List (ℝ × ℝ)) (k : ℕ) :
    idealFwdAt ord a k = ZMod.dft (sequenceAt ord a) k := by
  rw [idealFwdAt, ZMod.dft_apply, sum_zmod_eq_sum_range]
  refine sum_congr rfl fun n hn => ?_
  rw [sequenceAt_natCast a (mem_range.1 hn), smul_eq_mul, mul_comm (n : ZMod (2 ^ ord)), AddChar.map_neg_eq_inv,
    stdAddChar_natCast_mul, Complex.exp_neg, mul_comm]

theorem idealInvAt_eq_invDft (ord : ℕ) (a : List (ℝ × ℝ)) (n : ℕ) :
    idealInvAt ord a n = ZMod.dft.symm (sequenceAt ord a) n := by
  rw [idealInvAt, ZMod.invDFT_apply, sum_zmod_eq_sum_range, one_div, smul_eq_mul]
  congr 1
  refine sum_congr rfl fun k hk => ?_
  rw [sequenceAt_natCast a (mem_range.1 hk), smul_eq_mul, stdAddChar_natCast_mul, mul_comm]

@[simp] theorem ideal_fwd_length (ord : ℕ) (a : List (ℝ × ℝ)) : (ideal.fwd ord a).length = 2 ^ ord := by simp [ideal]

@[simp] theorem ideal_inv_length (ord : ℕ) (a : List (ℝ × ℝ)) : (ideal.inv ord a).length = 2 ^ ord := by simp [ideal]

theorem sequenceAt_fwd (ord : ℕ) (a : List (ℝ × ℝ)) :
    sequenceAt ord (ideal.fwd ord a) = ZMod.dft (sequenceAt ord a) :=
  sequenceAt_map_range fun k _ => idealFwdAt_eq_dft ord a k

theorem sequenceAt_inv (ord : ℕ) (a : List (ℝ × ℝ)) :
    sequenceAt ord (ideal.inv ord a) = ZMod.dft.symm (sequenceAt ord a) :=
  sequenceAt_map_range fun n _ => idealInvAt_eq_invDft ord a n

/-- Settles O49: on `ZMod K` the two directions are a linear equivalence and its inverse. -/
theorem inverseUndoesForward : Obligations.InverseUndoesForward := by
  intro ord a ha
  refine eq_of_sequenceAt_eq (ideal_inv_length ord _) ha ?_
  rw [sequenceAt_inv, sequenceAt_fwd, LinearEquiv.symm_apply_apply]

/-! The energy (R106, R135). -/

/-- The sum of squares of `K` pairs. -/
theorem sum_sq_eq_sum_normSq {ord : ℕ} {a : List (ℝ × ℝ)} (ha : a.length = 2 ^ ord) :
    (a.map fun z => z.1 ^ 2 + z.2 ^ 2).sum = ∑ k, Complex.normSq (sequenceAt ord a k) := by
  calc (a.map fun z => z.1 ^ 2 + z.2 ^ 2).sum
      = ∑ n ∈ range a.length, ((a.getD n (0, 0)).1 ^ 2 + (a.getD n (0, 0)).2 ^ 2) := by
        rw [← Fin.sum_univ_fun_getElem, sum_range]
        simp
    _ = ∑ n ∈ range (2 ^ ord), Complex.normSq (sequenceAt ord a n) := by
        rw [ha]
        refine sum_congr rfl fun n hn => ?_
        rw [sequenceAt_natCast a (mem_range.1 hn), normSq_toComplex]
    _ = ∑ k, Complex.normSq (sequenceAt ord a k) := by rw [sum_zmod_eq_sum_range]

theorem spectralEnergy_ideal (s : List (ℝ × ℝ)) :
    spectralEnergy ideal s = (s.map fun z => z.1 ^ 2 + z.2 ^ 2).sum := by
  have hfold : ∀ acc : ℝ, s.foldl (fun acc z => acc + z.1 * z.1 + z.2 * z.2) acc =
      acc + (s.map fun z => z.1 ^ 2 + z.2 ^ 2).sum := by
    induction s with
    | nil => simp
    | cons z s ih =>
      intro acc
      rw [List.foldl_cons, ih, List.map_cons, List.sum_cons]
      ring
  exact (hfold 0).trans (zero_add _)

/-- A sum of squares is 0 exactly when every term is. -/
theorem sum_sq_eq_zero_iff (a : List (ℝ × ℝ)) :
    (a.map fun z => z.1 ^ 2 + z.2 ^ 2).sum = 0 ↔ ∀ z ∈ a, z = (0, 0) := by
  constructor
  · intro h z hz
    have hnonneg : ∀ x ∈ a.map fun z => z.1 ^ 2 + z.2 ^ 2, 0 ≤ x := by
      simp only [List.mem_map]
      rintro _ ⟨w, -, rfl⟩
      positivity
    have hterm : z.1 ^ 2 + z.2 ^ 2 = 0 :=
      List.all_zero_of_le_zero_le_of_sum_eq_zero hnonneg h (List.mem_map_of_mem hz)
    rw [← normSq_toComplex, Complex.normSq_eq_zero] at hterm
    exact congrArg ofComplex hterm
  · intro h
    refine List.sum_eq_zero fun x hx => ?_
    obtain ⟨z, hz, rfl⟩ := List.mem_map.1 hx
    simp [h z hz]

/-- Settles O50: Parseval's identity on `ZMod K`, its two sides read off lists of `K` pairs. -/
theorem transformEnergyIsParseval : Obligations.TransformEnergyIsParseval := by
  intro ord a ha
  have hparseval : spectralEnergy ideal (ideal.fwd ord a) = 2 ^ ord * (a.map fun z => z.1 ^ 2 + z.2 ^ 2).sum := by
    rw [spectralEnergy_ideal, sum_sq_eq_sum_normSq (ideal_fwd_length ord a), sequenceAt_fwd, sum_normSq_dft,
      sum_sq_eq_sum_normSq ha, Nat.cast_pow, Nat.cast_ofNat]
  refine ⟨hparseval, ?_⟩
  rw [hparseval, mul_eq_zero, sum_sq_eq_zero_iff]
  exact or_iff_right (by positivity)

/-! Convolution (R103, R139). -/

theorem sequenceAt_map_real (ord : ℕ) (a : List ℝ) (k : ZMod (2 ^ ord)) :
    sequenceAt ord (a.map fun s => (s, 0)) k = (a.getD k.val 0 : ℝ) :=
  congrArg toComplex (List.getD_map a 0 fun s => (s, 0))

/-- The index `i - j` modulo `N`, as the rules write it in naturals. -/
theorem zmod_val_sub_natCast {N i j : ℕ} (hj : j ≤ N) : ((i : ZMod N) - j).val = (i + N - j) % N := by
  rw [← ZMod.val_natCast, Nat.cast_sub (by omega), Nat.cast_add, ZMod.natCast_self, add_zero]

theorem circularConv_eq_sum_zmod (ord : ℕ) (a b : List ℝ) (i : ℕ) :
    toComplex (circularConv (2 ^ ord) a b i, 0) =
      ∑ j, sequenceAt ord (a.map fun s => (s, 0)) j * sequenceAt ord (b.map fun s => (s, 0)) (i - j) := by
  rw [toComplex_ofReal, sum_zmod_eq_sum_range, circularConv, Complex.ofReal_sum]
  refine sum_congr rfl fun j hj => ?_
  have hlt : j < 2 ^ ord := mem_range.1 hj
  rw [sequenceAt_map_real, sequenceAt_map_real, ZMod.val_natCast_of_lt hlt, zmod_val_sub_natCast hlt.le,
    Complex.ofReal_mul]

theorem sequenceAt_circularConv (ord : ℕ) (a b : List ℝ) :
    sequenceAt ord ((List.range (2 ^ ord)).map fun i => (circularConv (2 ^ ord) a b i, 0)) =
      fun i => ∑ j, sequenceAt ord (a.map fun s => (s, 0)) j * sequenceAt ord (b.map fun s => (s, 0)) (i - j) :=
  sequenceAt_map_range fun i _ => circularConv_eq_sum_zmod ord a b i

/-- The convolution theorem (R103): of lists that are too long the elements from `K` on are ignored. -/
theorem inv_olaProduct_fwd (ord : ℕ) (a b : List ℝ) :
    ideal.inv ord (olaProduct ideal (ideal.fwd ord (b.map fun s => (s, 0))) (ideal.fwd ord (a.map fun s => (s, 0)))) =
      (List.range (2 ^ ord)).map fun i => (circularConv (2 ^ ord) a b i, 0) := by
  refine eq_of_sequenceAt_eq (ideal_inv_length ord _) (by simp) ?_
  rw [sequenceAt_inv, sequenceAt_olaProduct ord (ideal_fwd_length ord _) (ideal_fwd_length ord _), sequenceAt_fwd,
    sequenceAt_fwd, LinearEquiv.symm_apply_eq, sequenceAt_circularConv]
  exact (funext (dft_convolution _ _)).symm

/-- Settles O51: the product of the transforms is the transform of the convolution on `ZMod K`. -/
theorem circularConvolution : Obligations.CircularConvolution := by
  intro ord a b _ _
  exact inv_olaProduct_fwd ord a b

/-- The samples of a block with zeros up to the size (R134, R137). -/
def zeroPad (ord : ℕ) (x : List ℝ) : List ℝ := x ++ List.replicate (2 ^ ord - x.length) 0

theorem padBlock_ideal (ord : ℕ) (x : List ℝ) : padBlock ideal ord x = (zeroPad ord x).map fun s => (s, 0) := by
  simp [padBlock, zeroPad, ideal]

@[simp] theorem zeroPad_getD (ord : ℕ) (x : List ℝ) (i : ℕ) : (zeroPad ord x).getD i 0 = x.getD i 0 := by
  rcases Nat.lt_or_ge i x.length with hi | hi
  · rw [zeroPad, List.getD_append _ _ _ _ hi]
  · rw [zeroPad, List.getD_append_right _ _ _ _ hi, List.getD_eq_getElem?_getD, List.getElem?_getD_replicate_default_eq,
      List.getD_eq_default _ _ hi]

/-- `z` is the circular convolution of the padded block with the padded IR. -/
theorem olaConv_eq_circularConv (ord : ℕ) (h x : List ℝ) :
    olaConv ideal ord (filterSpectrum ideal ord h) x =
      (List.range (2 ^ ord)).map (circularConv (2 ^ ord) (zeroPad ord x) (zeroPad ord h)) := by
  rw [olaConv, olaInverse, olaForward, filterSpectrum, padBlock_ideal, padBlock_ideal, inv_olaProduct_fwd]
  simp

/-- With `K >= m + N - 1` an index that wraps around meets a zero of the padded IR. -/
theorem circularConv_zeroPad {ord i : ℕ} {h x : List ℝ} (hh : 1 ≤ h.length) (hK : x.length + h.length - 1 ≤ 2 ^ ord)
    (hi : i < 2 ^ ord) : circularConv (2 ^ ord) (zeroPad ord x) (zeroPad ord h) i = linearConv h x i := by
  have hx : range x.length ⊆ range (2 ^ ord) := range_subset_range.2 (by omega)
  simp only [circularConv, zeroPad_getD, linearConv]
  rw [← sum_subset hx fun j _ hj => ?_]
  · refine sum_congr rfl fun j hj => ?_
    have hjx : j < x.length := mem_range.1 hj
    rcases Nat.lt_or_ge i j with hlt | hle
    · have hmod : (i + 2 ^ ord - j) % 2 ^ ord = i + 2 ^ ord - j := Nat.mod_eq_of_lt (by omega)
      rw [if_neg (by omega), hmod, List.getD_eq_default h _ (by omega), mul_zero]
    · have hmod : (i + 2 ^ ord - j) % 2 ^ ord = i - j := by
        rw [Nat.sub_add_comm hle, Nat.add_mod_right, Nat.mod_eq_of_lt (by omega)]
      rw [hmod]
      split
      case isTrue => rfl
      case isFalse hnot => rw [List.getD_eq_default h _ (by omega), mul_zero]
  · rw [List.getD_eq_default _ _ (by simpa using hj), zero_mul]

/-- Settles O52: the block's circular convolution with the IR does not wrap around. -/
theorem blockConvolvesLinearly : Obligations.BlockConvolvesLinearly := by
  intro ord h x hh hK
  rw [olaConv_eq_circularConv]
  exact List.map_congr_left fun i hi => circularConv_zeroPad hh hK (List.mem_range.1 hi)

end Sys2Proof.Machine
end

section
/-! R108, R142, U4: a `NUM` block with every value on the way finite, and one without (log 4). -/

namespace Sys2Proof.Machine

theorem f32Finite_iff_exponent (w : Sample) : f32Finite w = true ↔ w.extractLsb' 23 8 ≠ 255#8 := by
  rw [f32Finite, bne_iff_ne, expBits_eq_extractLsb', ne_eq, ne_eq, ← BitVec.toNat_inj]
  rfl

theorem cplxFinite_iff (z : Cplx) : cplxFinite z = true ↔ f32Finite z.1 = true ∧ f32Finite z.2 = true :=
  Bool.and_eq_true_iff

section
variable {A : Arith Sample} {n ord : Nat} {hmem : List Sample} {spec : List Cplx} {o : Ola Sample} {x : List Sample}

/-- The nine places that the test of an ordinary block looks at. -/
theorem olaFinite_iff :
    olaFinite A n ord hmem spec o x = true ↔
      (∀ w ∈ x, f32Finite w = true) ∧ (∀ w ∈ o.ovl, f32Finite w = true) ∧ (∀ w ∈ hmem, f32Finite w = true) ∧
      (∀ z ∈ spec, cplxFinite z = true) ∧ (∀ z ∈ olaForward A ord x, cplxFinite z = true) ∧
      (∀ z ∈ olaProduct A spec (olaForward A ord x), cplxFinite z = true) ∧
      (∀ z ∈ A.inv ord (olaProduct A spec (olaForward A ord x)), cplxFinite z = true) ∧
      (∀ w ∈ (olaBlock A n ord spec o x).1, f32Finite w = true) ∧
      (∀ w ∈ (olaBlock A n ord spec o x).2.ovl, f32Finite w = true) := by
  simp only [olaFinite, Bool.and_eq_true, List.all_eq_true, and_assoc]

/-- Reading every element of a list gives the list. -/
theorem map_getD_range {α : Type} {l : List α} {k : Nat} (hl : l.length = k) (d : α) :
    ((List.range k).map fun i => l.getD i d) = l := by
  subst hl
  exact List.ext_getElem (by simp) fun i _ hi => by simp [hi]

theorem olaBlockNum_of_finite (free : Nat → Sample) (h : olaFinite A n ord hmem spec o x = true) :
    olaBlockNum A free n ord hmem spec o x = olaBlock A n ord spec o x := by
  simp only [olaBlockNum, h, if_true, map_getD_range (olaBlock_output_length A n ord spec o x),
    map_getD_range (olaBlock_ovl_length A n ord spec o x)]

theorem olaBlockNum_of_not_finite (free : Nat → Sample) (h : ¬ olaFinite A n ord hmem spec o x = true) :
    olaBlockNum A free n ord hmem spec o x =
      ((List.range x.length).map free, { ovl := (List.range (n - 1)).map fun t => free (x.length + t) }) := by
  simp only [olaBlockNum, h, if_false, Bool.false_eq_true]

end

/-- Settles O56: the test of the model is the stated one, and its two answers are the two cases. -/
theorem numBlockFollowsRuleOrIsFree : Obligations.NumBlockFollowsRuleOrIsFree := by
  rintro A free n ord hmem spec o x fin bigX bigY ordinary hfin rfl rfl hordinary
  have hok : ordinary ↔ olaFinite A n ord hmem spec o x = true := by
    have hsample : ∀ w, f32Finite w = true ↔ fin w := fun w => (f32Finite_iff_exponent w).trans (hfin w).symm
    simp only [hordinary, olaFinite_iff, cplxFinite_iff, hsample, olaForward, olaProduct]
  rw [hok]
  exact ⟨olaBlockNum_of_finite free, olaBlockNum_of_not_finite free⟩

end Sys2Proof.Machine
end

section
/-! R107, R147: zeros on the way through the OLA Convolver (log 16, log 17). -/

namespace Sys2Proof.Machine

theorem cplxIsZero_iff (z : Cplx) : cplxIsZero z = true ↔ f32IsZero z.1 = true ∧ f32IsZero z.2 = true :=
  Bool.and_eq_true_iff

theorem f32IsZero_posZero : f32IsZero posZero = true := by decide

/-- Where the elements are zeros, so is what is read past the end (log 13). -/
theorem f32IsZero_getD {l : List Sample} (h : l.all f32IsZero = true) (i : Nat) :
    f32IsZero (l.getD i posZero) = true := by
  rcases Nat.lt_or_ge i l.length with hi | hi
  · rw [List.getD_eq_getElem _ _ hi]
    exact List.all_eq_true.1 h _ (List.getElem_mem hi)
  · rw [List.getD_eq_default _ _ hi, f32IsZero_posZero]

section
variable {fwd inv : Nat → List Cplx → Nat → Cplx} {n ord m : Nat} {spec : List Cplx}

theorem cplxIsZero_complexMul {z w : Cplx} (hz : cplxIsZero z = true) (hw : cplxFinite w = true) :
    cplxIsZero (complexMul (numWith fwd inv) z w) = true := by
  obtain ⟨hre, him⟩ := (cplxIsZero_iff z).1 hz
  obtain ⟨hwre, hwim⟩ := (cplxFinite_iff w).1 hw
  rw [cplxIsZero_iff]
  exact ⟨f32IsZero_f32Sub (f32IsZero_f32Mul hre hwre) (f32IsZero_f32Mul him hwim),
    f32IsZero_f32Add (f32IsZero_f32Mul hre hwim) (f32IsZero_f32Mul him hwre)⟩

theorem padBlock_zeros (ord m : Nat) :
    (padBlock (numWith fwd inv) ord (List.replicate m posZero)).all cplxIsZero = true := by
  have hzero : cplxIsZero (posZero, posZero) = true := by decide
  simp [padBlock, numWith, hzero]

theorem olaProduct_zeros {bigX : List Cplx} (hX : bigX.all cplxIsZero = true) (hspec : spec.all cplxFinite = true) :
    (olaProduct (numWith fwd inv) spec bigX).all cplxIsZero = true := by
  rw [List.all_eq_true] at hX hspec ⊢
  intro z hz
  obtain ⟨i, hi, rfl⟩ := List.getElem_of_mem hz
  simp only [olaProduct, List.getElem_zipWith]
  exact cplxIsZero_complexMul (hX _ (List.getElem_mem _)) (hspec _ (List.getElem_mem _))

/-- A block of zeros gives `z` all zero: the transforms keep zeros, and so does a product with finite values. -/
theorem olaConv_zeros (hX : XformKeepsZero (numWith fwd inv)) (hord : ord ≤ 14) (hlen : spec.length = 2 ^ ord)
    (hspec : spec.all cplxFinite = true) (hm : m ≤ 2 ^ ord) :
    (olaConv (numWith fwd inv) ord spec (List.replicate m posZero)).all f32IsZero = true := by
  have hpad : (padBlock (numWith fwd inv) ord (List.replicate m posZero)).length = 2 ^ ord :=
    padBlock_length _ ord _ (by simpa using hm)
  have hforward := (hX ord hord _ hpad (padBlock_zeros ord m)).1
  have hforwardLength : ((numWith fwd inv).fwd ord _).length = 2 ^ ord := transformOf_length fwd ord _ hpad
  have hinverse := (hX ord hord (olaProduct (numWith fwd inv) spec _)
    (by simp [olaProduct, hforwardLength, hlen]) (olaProduct_zeros hforward hspec)).2
  rw [List.all_eq_true] at hinverse
  simp only [olaConv, olaInverse, olaForward, List.all_map, List.all_eq_true]
  exact fun z hz => ((cplxIsZero_iff z).1 (hinverse z hz)).1

theorem olaOutput_zeros {z ov : List Sample} (hz : z.all f32IsZero = true) (hov : ov.all f32IsZero = true) :
    (olaOutput (numWith fwd inv) n m z ov).all f32IsZero = true := by
  simp only [olaOutput, List.all_map, List.all_eq_true, Function.comp_apply]
  intro i _
  split
  · exact f32IsZero_f32Add (f32IsZero_getD hz i) (f32IsZero_getD hov i)
  · exact f32IsZero_getD hz i

theorem olaOverlap_zeros {z ov : List Sample} (hz : z.all f32IsZero = true) (hov : ov.all f32IsZero = true) :
    (olaOverlap (numWith fwd inv) n m z ov).all f32IsZero = true := by
  simp only [olaOverlap, List.all_map, List.all_eq_true, Function.comp_apply]
  intro t _
  split
  · exact f32IsZero_f32Add (f32IsZero_getD hov (t + m)) (f32IsZero_getD hz (m + t))
  · exact f32IsZero_getD hz (m + t)

end

/-- Settles O57: `z` of a block of zeros is zero, the reset overlap is, and sums of zeros are. -/
theorem olaSilence : Obligations.OlaSilence := by
  intro fwd inv n ord m spec o hX hord hlen hspec hn hsize
  have hz := olaConv_zeros hX hord hlen hspec (show m ≤ 2 ^ ord by omega)
  have hov : (olaReset (numWith fwd inv) n o).ovl.all f32IsZero = true := by
    simp [olaReset, numWith, f32IsZero_posZero]
  exact ⟨olaOutput_zeros hz hov, olaOverlap_zeros hz hov⟩

end Sys2Proof.Machine
end

section
/-! R166: a `PROC` under `FrequencyDomain`. -/

namespace Sys2Proof.Machine

/-- With a set, outside a window and of a legal length, `PROC` runs the block (R166, R195). -/
theorem exec_proc_runs {m : Nat} {s : State} {cs : ConvSet} (hfault : s.fault = 0#4) (hpend : s.pend = none)
    (hset : s.cset = some cs) (hpos : 1 ≤ m) (hm : m ≤ cs.b) (hlen : s.nch * m ≤ s.rpIn.length) :
    exec (.proc m) s = .next (procBlock m cs s) := by
  obtain ⟨t, ht⟩ := exec_runs (i := .proc m) hfault (fun h => by cases h) hlen
  rw [ht, exec_proc_ready ht hpend hset, if_neg (by omega)]

/-- The state after a block, field by field (R166; log 6). -/
theorem procBlock_eq (m : Nat) (cs : ConvSet) (s : State) :
    procBlock m cs s = { s with
      rpIn := s.rpIn.drop (s.nch * m),
      ccRp := s.ccRp + s.nch * m,
      draws := s.draws + drawsOf s.alg,
      rpOut := s.rpOut ++ responseWord 5#4 0#4 0#8 (BitVec.ofNat 16 m) ::
        ((cs.procAll s.alg s.draws m (s.rpIn.take (s.nch * m))).map Prod.fst).flatten,
      cset := some { cs with chans := cs.chansAfterProc s.alg s.draws m (s.rpIn.take (s.nch * m)) } } := rfl

/-- One part of what is computed at each index of a list. -/
theorem map_mapIdx {α β γ : Type} (l : List α) (f : Nat → α → β) (g : β → γ) :
    (l.mapIdx f).map g = l.mapIdx fun i a => g (f i a) :=
  List.ext_getElem? fun i => by simp [Function.comp_def]

/-- Settles O19: the block runs, and under `FrequencyDomain` the two parts of every channel's result are those of its
OLA Convolver. -/
theorem procRunsOlaConvolvers : Obligations.ProcRunsOlaConvolvers := by
  intro m s cs hfault hpend hset halg hpos hm hlen
  rw [exec_proc_runs hfault hpend hset hpos hm hlen]
  simp only [procBlock_eq, halg, ConvSet.chansAfterProc, ConvSet.procAll, map_mapIdx]
  rfl

end Sys2Proof.Machine
end

section
/-! R112, R113, R116: the delay line as the samples given so far, latest first. -/

namespace Sys2Proof.Machine

variable {α : Type} {A : Arith α}

/-! Taps (R55). -/

theorem tapIndex_mod {n k : Nat} (c : Nat) (hk : k ≤ n) : tapIndex n (c % n) k = (c + n - k) % n := by
  rw [tapIndex, Nat.add_sub_assoc hk, Nat.add_sub_assoc hk, Nat.mod_add_mod]

theorem tapIndex_zero {n cur : Nat} (hcur : cur < n) : tapIndex n cur 0 = cur := by
  rw [tapIndex, Nat.sub_zero, Nat.add_mod_right, Nat.mod_eq_of_lt hcur]

/-- Among the first `N` taps only tap 0 is at the cursor. -/
theorem tapIndex_succ_ne {n cur k : Nat} (hcur : cur < n) (hk : k + 1 < n) : tapIndex n cur (k + 1) ≠ cur := by
  unfold tapIndex
  rcases Nat.lt_or_ge cur (k + 1) with hwrap | hle
  · rw [Nat.mod_eq_of_lt (by omega)]
    omega
  · have hback : cur + n - (k + 1) = cur - (k + 1) + n := by omega
    rw [hback, Nat.add_mod_right, Nat.mod_eq_of_lt (by omega)]
    omega

/-! Blocks (R113). -/

theorem directBlock_append (h : List α) (n : Nat) (d : Direct α) (x y : List α) :
    directBlock A h n d (x ++ y) =
      ((directBlock A h n d x).1 ++ (directBlock A h n (directBlock A h n d x).2 y).1,
       (directBlock A h n (directBlock A h n d x).2 y).2) := by
  induction x generalizing d with
  | nil => rfl
  | cons a x ih => simp only [List.cons_append, directBlock_cons, ih]

/-- Settles O42: by induction on the first block, since a block is its samples one after another. -/
theorem directBlocksSplit : Obligations.DirectBlocksSplit :=
  fun _ _ h n d x y => directBlock_append h n d x y

theorem directRun_eq_directBlock (h : List α) (n : Nat) (d : Direct α) (blocks : List (List α)) :
    directRun A h n d blocks = directBlock A h n d blocks.flatten := by
  induction blocks generalizing d with
  | nil => rfl
  | cons x blocks ih => simp only [directRun, List.flatten_cons, directBlock_append, ih]

/-! What the delay line holds (R116). -/

/-- After the samples `past`, latest first: the cursor is their count modulo `N`, and sample `j` of them stands `j + 1`
places behind the cursor, `+0` where so many samples were not given. -/
structure DelayLine (A : Arith α) (n : Nat) (past : List α) (d : Direct α) : Prop where
  cur : d.cur = past.length % n
  length : d.dly.length = n
  sample : ∀ j, j < n → d.dly[tapIndex n d.cur (j + 1)]? = some (past.getD j A.zero)

/-- The dot product of `h` with the samples given so far, latest first, in the order of R112. -/
def pastDot (A : Arith α) (h : List α) (n : Nat) (past : List α) : α :=
  (List.range n).foldl (fun acc k => A.add acc (A.mul (h.getD k A.zero) (past.getD k A.zero))) A.zero

theorem pastDot_succ (h : List α) (n : Nat) (past : List α) :
    pastDot A h (n + 1) past = A.add (pastDot A h n past) (A.mul (h.getD n A.zero) (past.getD n A.zero)) := by
  simp only [pastDot, List.range_succ, List.foldl_append, List.foldl_cons, List.foldl_nil]

theorem DelayLine.construct {n : Nat} (hn : 1 ≤ n) : DelayLine A n [] (directConstruct A n) where
  cur := (Nat.zero_mod n).symm
  length := directConstruct_dly_length A n
  sample j _ := by
    rw [directConstruct, List.getElem?_replicate_of_lt (tapIndex_lt n 0 (j + 1) hn)]
    rfl

section
variable {h : List α} {n : Nat} {past : List α} {d : Direct α}

/-- The sample written at the cursor is tap 0, and every older one is a tap further back than before. -/
theorem DelayLine.written_getElem? (hd : DelayLine A n past d) (x : α) {k : Nat} (hk : k < n) :
    (d.dly.set d.cur x)[tapIndex n d.cur k]? = some ((x :: past).getD k A.zero) := by
  have hcur : d.cur < n := hd.cur ▸ Nat.mod_lt _ (Nat.zero_lt_of_lt hk)
  cases k with
  | zero => rw [tapIndex_zero hcur, List.getElem?_set_self (hd.length ▸ hcur), List.getD_cons_zero]
  | succ k =>
    rw [List.getElem?_set_ne (tapIndex_succ_ne hcur hk).symm, hd.sample k (Nat.lt_of_succ_lt hk), List.getD_cons_succ]

theorem DelayLine.directSample_output (hd : DelayLine A n past d) (x : α) :
    (directSample A h n d x).1 = pastDot A h n (x :: past) := by
  refine List.foldl_ext _ _ _ fun acc k hk => ?_
  rw [List.getD_eq_getElem?_getD (l := d.dly.set d.cur x), hd.written_getElem? x (List.mem_range.1 hk), Option.getD_some]

theorem DelayLine.after_sample (hd : DelayLine A n past d) (x : α) :
    DelayLine A n (x :: past) (directSample A h n d x).2 where
  cur := by rw [directSample_cur, hd.cur, Nat.mod_add_mod, List.length_cons]
  length := (directSample_dly_length A h n d x).trans hd.length
  sample j hj := by
    have htap : tapIndex n ((d.cur + 1) % n) (j + 1) = tapIndex n d.cur j := by
      rw [tapIndex_mod _ hj, tapIndex]
      congr 1
      omega
    rw [directSample_cur, htap]
    exact hd.written_getElem? x hj

theorem DelayLine.after_block (hd : DelayLine A n past d) (x : List α) :
    DelayLine A n (x.reverse ++ past) (directBlock A h n d x).2 := by
  induction x generalizing d past with
  | nil => exact hd
  | cons a x ih =>
    rw [directBlock_cons, List.reverse_cons, List.append_assoc]
    exact ih (hd.after_sample a)

theorem DelayLine.directBlock_output (hd : DelayLine A n past d) (x : List α) {i : Nat} (hi : i < x.length) :
    (directBlock A h n d x).1[i]? = some (pastDot A h n ((x.take (i + 1)).reverse ++ past)) := by
  induction x generalizing d past i with
  | nil => simp at hi
  | cons a x ih =>
    rw [directBlock_cons]
    cases i with
    | zero => simp [hd.directSample_output]
    | succ i =>
      rw [List.getElem?_cons_succ, ih (hd.after_sample a) (Nat.lt_of_succ_lt_succ hi)]
      simp

end

/-- The two ways to begin (R111, R114) are one state. -/
theorem eq_directConstruct {n : Nat} {d : Direct α}
    (hd : d = directConstruct A n ∨ ∃ old : Direct α, d = directReset A n old) : d = directConstruct A n :=
  hd.elim id fun ⟨_, hold⟩ => hold

/-- Settles O43: what the block leaves is a delay line of the samples in reverse. -/
theorem delayLineHoldsLatestSamples : Obligations.DelayLineHoldsLatestSamples := by
  intro α A h n x d d0 hn hbegin hd
  obtain rfl := eq_directConstruct hbegin
  obtain ⟨hcur, -, hsample⟩ := hd ▸ (DelayLine.construct hn).after_block (h := h) x
  rw [List.append_nil] at hsample
  simp only [List.append_nil, List.length_reverse] at hcur
  refine ⟨hcur, fun j hj => ?_, fun i hi hin => ?_⟩
  · have hj' : j < x.length := by omega
    have htap : tapIndex n d.cur (j + 1) = (x.length - 1 - j) % n := by
      rw [hcur, tapIndex_mod _ (by omega), ← Nat.add_mod_right (x.length - 1 - j)]
      congr 1
      omega
    rw [← htap, hsample j (by omega), List.getD_reverse j hj', List.getD_eq_getElem _ _ (by omega),
      List.getElem?_eq_getElem]
  · have htap : tapIndex n d.cur (x.length + n - 1 - i + 1) = i := by
      have hback : x.length + n - (x.length + n - 1 - i + 1) = i := by omega
      rw [hcur, tapIndex_mod _ (by omega), hback, Nat.mod_eq_of_lt hin]
    rw [← htap, hsample _ (by omega), List.getD_eq_default _ _ (by rw [List.length_reverse]; omega)]

/-! The convolution (R110). -/

/-- The samples up to sample `i`, latest first. -/
theorem getD_reverse_take (x : List α) {i : Nat} (hi : i < x.length) (k : Nat) (z : α) :
    (x.take (i + 1)).reverse.getD k z = if k ≤ i then x.getD (i - k) z else z := by
  have hlen : (x.take (i + 1)).length = i + 1 := List.length_take_of_le hi
  split
  case isTrue hk =>
    rw [List.getD_reverse k (by omega), hlen, Nat.add_sub_cancel, List.getD_eq_getElem?_getD,
      List.getElem?_take_of_lt (by omega), List.getD_eq_getElem?_getD]
  case isFalse hk => rw [List.getD_eq_default _ _ (by rw [List.length_reverse]; omega)]

theorem pastDot_ideal (h : List ℝ) (n : Nat) (past : List ℝ) :
    pastDot ideal h n past = ∑ k ∈ Finset.range n, h.getD k 0 * past.getD k 0 := by
  induction n with
  | zero => rfl
  | succ n ih => rw [pastDot_succ, Finset.sum_range_succ, ← ih]; rfl

/-- Settles O44: the blocks are one block, and its output sample `i` is the dot product with the samples up to `i`. -/
theorem directComputesConvolution : Obligations.DirectComputesConvolution := by
  intro h blocks d i hn hi hbegin
  obtain rfl := eq_directConstruct hbegin
  rw [directRun_eq_directBlock, List.getD_eq_getElem?_getD, (DelayLine.construct hn).directBlock_output _ hi,
    Option.getD_some, List.append_nil, pastDot_ideal]
  simp only [getD_reverse_take _ hi, mul_ite, mul_zero]

end Sys2Proof.Machine
end

section
/-! R112, R114, R118: the Direct Convolver in binary32 on zeros and on a unit impulse (log 17). -/

namespace Sys2Proof.Machine

/-! Rounding a value that is a pattern already. -/

theorem roundShift_mul_two_pow (q t : Nat) : roundShift (q * 2 ^ t) t = q := by
  have := Nat.two_pow_pos t
  rw [roundShift_eq, Nat.mul_mod_left, Nat.mul_div_cancel _ this, if_neg (by omega)]

/-- A value of at most 24 bits, at its normal place unless subnormal, is in its own binade. -/
theorem roundBinade_mul_two_pow {q j : Nat} (d : Nat) (hq : q < 2 ^ 24) (hnormal : 0 < j → 2 ^ 23 ≤ q) :
    roundBinade (q * 2 ^ (d + j)) d = j := by
  rcases Nat.eq_zero_or_pos q with rfl | hpos
  · have hj : ¬ 0 < j := fun hj => absurd (hnormal hj) (by decide)
    simp [roundBinade]
    omega
  · have hpow : 0 < 2 ^ (d + j) := Nat.two_pow_pos _
    have hne : q * 2 ^ (d + j) ≠ 0 := (Nat.mul_pos hpos hpow).ne'
    have hupper : (q * 2 ^ (d + j)).log2 < 24 + (d + j) := by
      rw [Nat.log2_lt hne, Nat.pow_add 2 24]
      exact Nat.mul_lt_mul_of_pos_right hq hpow
    have hlower : 0 < j → 23 + (d + j) ≤ (q * 2 ^ (d + j)).log2 := fun hj => by
      rw [Nat.le_log2 hne, Nat.pow_add 2 23]
      exact Nat.mul_le_mul_right _ (hnormal hj)
    unfold roundBinade
    omega

theorem roundPack_mul_two_pow {q j : Nat} (neg : Bool) (d : Nat) (hq : q < 2 ^ 24) (hnormal : 0 < j → 2 ^ 23 ≤ q)
    (hlow : j * 2 ^ 23 + q < 255 * 2 ^ 23) : roundPack neg (q * 2 ^ (d + j)) d = packSign neg (j * 2 ^ 23 + q) := by
  unfold roundPack
  simp only [roundBinade_mul_two_pow d hq hnormal, roundShift_mul_two_pow]
  exact if_neg (Nat.not_le_of_lt hlow)

theorem packSign_fields (x : Sample) : packSign (signBit x) (expBits x * 2 ^ 23 + fracBits x) = x := by
  have hx := x.isLt
  apply BitVec.eq_of_toNat_eq
  rw [packSign_toNat _ (by unfold expBits fracBits; omega)]
  simp only [expBits, fracBits, signBit, decide_eq_true_eq]
  split <;> omega

/-- Rounding changes no pattern (R84, K7). -/
theorem roundPack_unitsMag {x : Sample} (hx : f32Finite x = true) (d : Nat) :
    roundPack (signBit x) (unitsMag x * 2 ^ d) d = x := by
  have hexp : expBits x < 255 := by
    have : expBits x < 256 := Nat.mod_lt _ (by decide)
    have : expBits x ≠ 255 := by simpa [f32Finite] using hx
    omega
  have hfrac := fracBits_lt x
  conv_rhs => rw [← packSign_fields x]
  unfold unitsMag
  split
  case isTrue hsub =>
    rw [hsub]
    simpa using roundPack_mul_two_pow (j := 0) (signBit x) d (by omega) (by simp) (by omega)
  case isFalse hnormal =>
    have hlow : expBits x * 2 ^ 23 + fracBits x = (expBits x - 1) * 2 ^ 23 + (2 ^ 23 + fracBits x) := by omega
    rw [hlow, Nat.mul_assoc, ← Nat.pow_add, Nat.add_comm _ d]
    exact roundPack_mul_two_pow _ d (by omega) (by omega) (by omega)

theorem unitsMag_ne_zero {x : Sample} (h : ¬ f32IsZero x = true) : unitsMag x ≠ 0 := by
  rw [f32IsZero_iff] at h
  unfold unitsMag
  split
  case isTrue hexp => exact fun hfrac => h ⟨hexp, hfrac⟩
  case isFalse => positivity

/-! Sums with zeros and products with zeros and with one. -/

theorem f32Add_comm (x y : Sample) : f32Add x y = f32Add y x := by
  unfold f32Add
  cases floatVal x <;> cases floatVal y <;> simp only [addFin, Int.add_comm, Bool.and_comm]
  case inf.inf a b => cases a <;> cases b <;> rfl

theorem f32Mul_comm (x y : Sample) : f32Mul x y = f32Mul y x := by
  unfold f32Mul
  cases floatVal x <;> cases floatVal y <;> simp only [Nat.mul_comm, bne_comm]

theorem addFin_zero_right {m : Nat} (neg neg' : Bool) (hm : m ≠ 0) : addFin neg m neg' 0 = roundPack neg m 0 := by
  have hpos : 0 < m := Nat.pos_of_ne_zero hm
  have hneg : ¬ (m : Int) < 0 := Int.not_lt.2 (Int.natCast_nonneg m)
  cases neg <;> simp [addFin, signedMag, hm, hpos, hneg]

/-- A sum with a zero is the other operand, or a zero that is negative only if both are (R112, log 17). -/
theorem f32Add_of_isZero {x z : Sample} (hx : f32Finite x = true) (hz : f32IsZero z = true) :
    f32Add x z = if f32IsZero x then packSign (signBit x && signBit z) 0 else x := by
  split
  case isTrue hx0 => simp [f32Add, addFin, signedMag, floatVal_of_isZero hx0, floatVal_of_isZero hz]
  case isFalse hx0 =>
    simp only [f32Add, floatVal_of_finite hx, floatVal_of_isZero hz, addFin_zero_right _ _ (unitsMag_ne_zero hx0)]
    simpa using roundPack_unitsMag hx 0

theorem f32Mul_one {x : Sample} (hx : f32Finite x = true) : f32Mul x 0x3F800000#32 = x := by
  have hone : floatVal 0x3F800000#32 = .fin false (2 ^ 149) := by decide
  simp only [f32Mul, floatVal_of_finite hx, hone, Bool.bne_false, roundPack_unitsMag hx]

/-! Dot products on zeros and on one unit sample (R112, R118). -/

/-- A sample with a zero of either sign made `+0`. -/
def plusZero (w : Sample) : Sample := if f32IsZero w then 0#32 else w

theorem posZero_f32Add_of_isZero {z : Sample} (hz : f32IsZero z = true) : f32Add posZero z = posZero := by
  have hsign : signBit posZero = false := by decide
  rw [f32Add_of_isZero (by decide) hz, if_pos f32IsZero_posZero, hsign, Bool.false_and]
  rfl

theorem posZero_f32Add {w : Sample} (hw : f32Finite w = true) : f32Add posZero w = plusZero w := by
  unfold plusZero
  split
  case isTrue hz => exact posZero_f32Add_of_isZero hz
  case isFalse hz => rw [f32Add_comm, f32Add_of_isZero hw f32IsZero_posZero, if_neg hz]

theorem plusZero_f32Add {w z : Sample} (hw : f32Finite w = true) (hz : f32IsZero z = true) :
    f32Add (plusZero w) z = plusZero w := by
  unfold plusZero
  split
  case isTrue => exact posZero_f32Add_of_isZero hz
  case isFalse hw0 => rw [f32Add_of_isZero hw hz, if_neg hw0]

theorem f32IsZero_f32Mul_posZero {w : Sample} (hw : f32Finite w = true) : f32IsZero (f32Mul w posZero) = true := by
  rw [f32Mul_comm]
  exact f32IsZero_f32Mul f32IsZero_posZero hw

theorem f32Finite_getD {l : List Sample} (h : l.all f32Finite = true) (i : Nat) :
    f32Finite (l.getD i posZero) = true := by
  rcases Nat.lt_or_ge i l.length with hi | hi
  · rw [List.getD_eq_getElem _ _ hi]
    exact List.all_eq_true.1 h _ (List.getElem_mem hi)
  · rw [List.getD_eq_default _ _ hi]
    decide

section
variable {h : List Sample} {n : Nat} {past : List Sample}

theorem pastDot_num_succ (h : List Sample) (n : Nat) (past : List Sample) :
    pastDot num h (n + 1) past =
      f32Add (pastDot num h n past) (f32Mul (h.getD n posZero) (past.getD n posZero)) := pastDot_succ h n past

/-- From `+0`, products with `+0` leave `+0`. -/
theorem pastDot_zeros (hfin : h.all f32Finite = true) (hpast : ∀ k, k < n → past.getD k posZero = posZero) :
    pastDot num h n past = posZero := by
  induction n with
  | zero => rfl
  | succ n ih =>
    rw [pastDot_num_succ, ih fun k hk => hpast k (Nat.lt_succ_of_lt hk), hpast n (Nat.lt_succ_self n)]
    exact posZero_f32Add_of_isZero (f32IsZero_f32Mul_posZero (f32Finite_getD hfin n))

/-- Before the unit sample the sum is `+0`, at it the element of the IR, and the products after it add nothing. -/
theorem pastDot_impulse (hfin : h.all f32Finite = true) {i : Nat}
    (hpast : ∀ k, past.getD k posZero = if k = i then 0x3F800000#32 else posZero) (hi : i < n) :
    pastDot num h n past = plusZero (h.getD i posZero) := by
  induction n, hi using Nat.le_induction with
  | base =>
    rw [pastDot_num_succ, pastDot_zeros hfin fun k hk => (hpast k).trans (if_neg (Nat.ne_of_lt hk)), hpast i, if_pos rfl,
      f32Mul_one (f32Finite_getD hfin i), posZero_f32Add (f32Finite_getD hfin i)]
  | succ n hi ih =>
    rw [pastDot_num_succ, ih, hpast n, if_neg (Nat.ne_of_gt hi)]
    exact plusZero_f32Add (f32Finite_getD hfin i) (f32IsZero_f32Mul_posZero (f32Finite_getD hfin n))

end

/-- Settles O45: output sample `i` is a dot product with the impulse at tap `i`. -/
theorem directImpulseIdentity : Obligations.DirectImpulseIdentity := by
  intro h hn hfin
  refine List.ext_getElem (by simp; omega) fun i hi hi' => ?_
  have hih : i < h.length := by simpa using hi'
  have hlen : i < (0x3F800000#32 :: List.replicate (h.length - 1) 0#32 : List Sample).length := by simpa using hi
  have hpast (k : Nat) : ((0x3F800000#32 :: List.replicate (h.length - 1) 0#32).take (i + 1)).reverse.getD k posZero =
      if k = i then 0x3F800000#32 else posZero := by
    rw [getD_reverse_take _ hlen]
    rcases Nat.lt_trichotomy k i with hlt | rfl | hgt
    · have hback : i - k = i - k - 1 + 1 := by omega
      rw [if_pos hlt.le, if_neg hlt.ne, hback, List.getD_cons_succ]
      exact List.getElem?_getD_replicate_default_eq _ _ _
    · rw [if_pos le_rfl, if_pos rfl, Nat.sub_self, List.getD_cons_zero]
    · rw [if_neg hgt.not_ge, if_neg hgt.ne']
  have hout := (DelayLine.construct (A := num) hn).directBlock_output (h := h) _ hlen
  rw [List.append_nil, pastDot_impulse hfin hpast hih, List.getElem?_eq_getElem hi, Option.some_inj] at hout
  rw [hout, List.getElem_map, List.getD_eq_getElem _ _ hih, plusZero]

theorem directBlock_zeros_dly {α : Type} {A : Arith α} {n : Nat} (h : List α) (m : Nat) {d : Direct α}
    (hd : d.dly = List.replicate n A.zero) :
    (directBlock A h n d (List.replicate m A.zero)).2.dly = List.replicate n A.zero := by
  induction m generalizing d with
  | zero => exact hd
  | succ m ih => exact ih (by simp [directSample, hd])

/-- Settles O46: every output is a dot product with zeros, and writing zeros changes no zero. -/
theorem directSilence : Obligations.DirectSilence := by
  intro h m d hn hfin
  refine ⟨List.eq_replicate_iff.2 ⟨by simp, fun y hy => ?_⟩, directBlock_zeros_dly h m rfl⟩
  obtain ⟨i, hi, rfl⟩ := List.getElem_of_mem hy
  have hlen : i < (List.replicate m 0#32 : List Sample).length := by simpa using hi
  have hpast (k : Nat) : ((List.replicate m 0#32).take (i + 1)).reverse.getD k posZero = posZero := by
    rw [getD_reverse_take _ hlen]
    exact ite_eq_right_iff.2 fun _ => List.getElem?_getD_replicate_default_eq _ _ _
  have hout := (DelayLine.construct (A := num) hn).directBlock_output (h := h) _ hlen
  rw [List.append_nil, pastDot_zeros hfin fun k _ => hpast k] at hout
  exact (List.getElem_eq_iff hi).2 hout

end Sys2Proof.Machine
end

section
/-! R164, R166: `RESET` on a channel that exists, and a `PROC` under `TimeDomain`. -/

namespace Sys2Proof.Machine

/-- With a set and outside a window, `RESET` of a channel that exists resets its chosen units and answers (R164). -/
theorem exec_reset_runs {direct ola : Bool} {c : Nat} {s : State} {cs : ConvSet} (hfault : s.fault = 0#4)
    (hpend : s.pend = none) (hset : s.cset = some cs) (hc : c < s.nch) :
    exec (.reset direct ola c) s =
      .next ((s.withSet (cs.resetChannel direct ola c)).answer .rp .reset 0#8 0 []) := by
  have heffect : resetEffect direct ola c s =
      (s.withSet (cs.resetChannel direct ola c)).answer .rp .reset 0#8 0 [] :=
    (if_neg (Nat.not_le_of_lt hc)).trans (trylock_ready .reset 0 s _ cs hpend hset)
  exact (realTimeCommand_runs 0 s _ hfault (Nat.zero_le _)).trans (congrArg _ heffect)

theorem ConvSet.resetChannel_eq {direct ola : Bool} {c : Nat} {cs : ConvSet} {ch : Channel}
    (hch : cs.chans[c]? = some ch) :
    cs.resetChannel direct ola c = { cs with chans := cs.chans.set c (ch.reset cs.n direct ola) } := by
  rw [ConvSet.resetChannel, List.modify_eq_set_getElem?, hch]
  rfl

/-- Settles O16: the set that `RESET` leaves differs in one channel, and that channel in the chosen units. -/
theorem resetZeroesChosenUnits : Obligations.ResetZeroesChosenUnits := by
  intro direct ola c s cs ch hfault hpend hset hc hch
  rw [exec_reset_runs hfault hpend hset hc, ConvSet.resetChannel_eq hch]
  rfl

/-- Settles O18: the block runs, and under `TimeDomain` the two parts of every channel's result are those of its Direct
Convolver. -/
theorem procRunsDirectConvolvers : Obligations.ProcRunsDirectConvolvers := by
  intro m s cs hfault hpend hset halg hpos hm hlen
  rw [exec_proc_runs hfault hpend hset hpos hm hlen]
  simp only [procBlock_eq, halg, ConvSet.chansAfterProc, ConvSet.procAll, map_mapIdx]
  rfl

end Sys2Proof.Machine
end

section
/-! R130, R131, R168: the derived order, and the begin step of a `BUILD` with legal operands. -/

namespace Sys2Proof.Machine

theorem ceilLog2_le_iff {n e : Nat} : ceilLog2 n ≤ e ↔ n ≤ 2 ^ e := by
  unfold ceilLog2
  split
  case isTrue hsmall => exact iff_of_true (Nat.zero_le e) (hsmall.trans Nat.one_le_two_pow)
  case isFalse hlarge =>
    rw [Nat.succ_le_iff, Nat.log2_lt (by omega)]
    omega

/-- Settles O41: to be at least `ceil_log2(n)` and to be large enough are one condition on an exponent. -/
theorem ceilLogIsLeast : Obligations.CeilLogIsLeast :=
  fun _ _ => ⟨ceilLog2_le_iff.1 le_rfl, fun _ => ceilLog2_le_iff.2⟩

/-- The upper clamp does nothing where the largest order is large enough (R131). -/
theorem derivedOrder_eq_max {n b : Nat} (h : needOf n b ≤ 2 ^ orderMax) :
    derivedOrder n b = max orderMin (ceilLog2 (needOf n b)) := by
  have hle : ceilLog2 (needOf n b) ≤ orderMax := ceilLog2_le_iff.2 h
  unfold derivedOrder clamp
  split_ifs <;> omega

/-- No smaller order from `orderMin` on is large enough. -/
theorem derivedOrder_least {n b : Nat} (h : needOf n b ≤ 2 ^ orderMax) :
    derivedOrder n b = orderMin ∨ 2 ^ (derivedOrder n b - 1) < needOf n b := by
  rw [derivedOrder_eq_max h, ← Nat.not_le, ← ceilLog2_le_iff]
  have hpos : 0 < orderMin := by decide
  omega

theorem not_tooSmall_derivedOrder {n b : Nat} (h : needOf n b ≤ 2 ^ orderMax) : ¬ tooSmall (derivedOrder n b) n b := by
  rw [tooSmall, Nat.not_lt, ← ceilLog2_le_iff, derivedOrder_eq_max h]
  exact le_max_right _ _

theorem buildFault_build_eq_none {n b : Nat} (hn : 1 ≤ n) (hb : 1 ≤ b) (h : needOf n b ≤ 2 ^ orderMax) (o : Nat) :
    buildFault .build n b o = none := by
  have hparam : ¬ badParam .build b o := by
    rintro (hzero | ⟨hop, -⟩)
    · omega
    · cases hop
  rw [buildFault, if_neg (by omega), if_neg hparam]
  exact if_neg (not_tooSmall_derivedOrder h)

/-- Settles O27: legal operands pass the tests of the begin step, and the order in `PEND` is the derived one. -/
theorem buildBegins : Obligations.BuildBegins := by
  intro n b s hfault hpend hn hb hneed hlen
  have hnone : buildFault .build n b 0 = none := buildFault_build_eq_none hn hb hneed 0
  obtain ⟨-, -, hmax, hfits⟩ := operandsOk_of_buildFault_eq_none hnone
  have hmin : 6 ≤ derivedOrder n b := (le_max_left _ _).trans_eq (derivedOrder_eq_max hneed).symm
  refine ⟨derivedOrder n b, hmin, hmax, hfits, derivedOrder_least hneed, ?_⟩
  exact (controlCommand_runs n s _ hfault hpend hlen).trans (congrArg _ (buildBegin_begins .build n b 0 s hnone))

end Sys2Proof.Machine
end

section
/-! R134, R135, R143, R165, R167: `FLUSH` on a channel that exists, and the commit step of a build. -/

namespace Sys2Proof.Machine

/-- Settles O17: `FLUSH` runs, and its payload is the overlap of the channel that stands at the index. -/
theorem flushReturnsOverlap : Obligations.FlushReturnsOverlap := by
  intro c s cs ch hfault hpend hset hc hch
  obtain ⟨t, ht⟩ := exec_runs (i := .flush c) hfault (fun h => by cases h) (Nat.zero_le _)
  have hflush : cs.flushChannel c = ch.ola.ovl := by
    rw [ConvSet.flushChannel, hch]
    rfl
  rw [ht, exec_flush_ready ht hpend hset hc, hflush]
  rfl

theorem opcodeBits_buildOp (op : BuildOp) : opcodeBits op.opcode = if op = .build then 8#4 else 9#4 := by
  cases op <;> rfl

/-- Settles O31: the two cases of the commit, told apart by the energy of the new spectrum. -/
theorem commitReplacesWholeSet : Obligations.CommitReplacesWholeSet := by
  rintro pd s _ rfl _ rfl
  rw [← opcodeBits_buildOp]
  obtain ⟨hzero, hcommit⟩ | ⟨henergy, hcommit⟩ := buildCommit_cases pd s
  · exact ⟨fun _ => hcommit, fun h => absurd hzero (Bool.eq_false_iff.1 h)⟩
  · exact ⟨fun h => absurd h (Bool.eq_false_iff.1 henergy), fun _ => hcommit⟩

end Sys2Proof.Machine
end

section
/-! R139 to R142: the overlap-add equations, element by element. -/

namespace Sys2Proof.Machine

variable {α : Type} {A : Arith α}

theorem olaOutput_getElem? {i m : Nat} (n : Nat) (z ov : List α) (hi : i < m) :
    (olaOutput A n m z ov)[i]? =
      some (if i < n - 1 then A.add (z.getD i A.zero) (ov.getD i A.zero) else z.getD i A.zero) := by
  rw [olaOutput, List.getElem?_map, List.getElem?_range hi, Option.map_some]

theorem olaOverlap_getElem? {n t : Nat} (m : Nat) (z ov : List α) (ht : t < n - 1) :
    (olaOverlap A n m z ov)[t]? =
      some (if t + m < n - 1 then A.add (ov.getD (t + m) A.zero) (z.getD (m + t) A.zero)
        else z.getD (m + t) A.zero) := by
  rw [olaOverlap, List.getElem?_map, List.getElem?_range ht, Option.map_some]

/-- Settles O55: a block is its output and its new overlap, each given at every index. -/
theorem overlapAddEquations : Obligations.OverlapAddEquations := by
  rintro α A n ord spec ov x z rfl _ rfl
  exact ⟨olaBlock_output_length A n ord spec _ x, olaBlock_ovl_length A n ord spec _ x,
    fun i hi => olaOutput_getElem? n _ ov hi, fun t ht => olaOverlap_getElem? x.length _ ov ht⟩

end Sys2Proof.Machine
end

section
/-! R110, R139, R145, R146: both convolvers give the linear convolution of the whole stream with the IR. -/

namespace Sys2Proof.Machine

open Finset

/-! The linear convolution (R110, R145). -/

/-- Past its last nonzero place the convolution is 0. -/
theorem linearConv_eq_zero {h x : List ℝ} {i : ℕ} (hi : x.length + h.length ≤ i + 1) : linearConv h x i = 0 := by
  refine sum_eq_zero fun j hj => if_neg ?_
  have hjx : j < x.length := mem_range.1 hj
  omega

/-- Convolution is additive over the parts of a stream, each at its own place. -/
theorem linearConv_append (h x y : List ℝ) (i : ℕ) :
    linearConv h (x ++ y) i = linearConv h x i + if x.length ≤ i then linearConv h y (i - x.length) else 0 := by
  rw [linearConv, List.length_append, sum_range_add]
  congr 1
  · refine sum_congr rfl fun j hj => ?_
    rw [List.getD_append _ _ _ _ (mem_range.1 hj)]
  · split
    case isTrue hle =>
      refine sum_congr rfl fun j _ => ?_
      have hidx : i - (x.length + j) = i - x.length - j := by omega
      have hcond : x.length + j ≤ i ↔ j ≤ i - x.length := by omega
      rw [List.getD_append_right _ _ _ _ (by omega), Nat.add_sub_cancel_left, hidx]
      simp only [hcond]
    case isFalse hlt => exact sum_eq_zero fun j _ => if_neg (by omega)

/-- A sum up to a bound and up to `i`, of terms that are 0 from the bound on. -/
theorem sum_range_ite_le {M : Type*} [AddCommMonoid M] {f : ℕ → M} {a : ℕ} (hf : ∀ j, a ≤ j → f j = 0) (i : ℕ) :
    (∑ j ∈ range a, if j ≤ i then f j else 0) = ∑ j ∈ range (i + 1), f j := by
  rw [← sum_filter]
  refine sum_subset (fun j hj => ?_) fun j hj hnot => hf j ?_
  · simp only [mem_filter, mem_range] at hj ⊢
    omega
  · simp only [mem_filter, mem_range] at hj hnot
    omega

/-- The convolution as a sum over the samples up to `i`, with 0 past the ends of both lists. -/
theorem linearConv_eq_sum_samples (h x : List ℝ) (i : ℕ) :
    linearConv h x i = ∑ j ∈ range (i + 1), x.getD j 0 * h.getD (i - j) 0 := by
  have hx : ∀ j, x.length ≤ j → x.getD j 0 * h.getD (i - j) 0 = 0 := fun j hj => by
    rw [List.getD_eq_default x _ hj, zero_mul]
  rw [← sum_range_ite_le hx, linearConv]
  refine sum_congr rfl fun j _ => ?_
  rcases Nat.lt_or_ge (i - j) h.length with hlt | hge
  · simp only [hlt, and_true]
  · rw [List.getD_eq_default h _ hge, mul_zero, ite_self, ite_self]

/-- The convolution as a sum over the taps (R110). -/
theorem linearConv_eq_sum_taps (h x : List ℝ) (i : ℕ) :
    linearConv h x i = ∑ k ∈ range h.length, if k ≤ i then h.getD k 0 * x.getD (i - k) 0 else 0 := by
  have hh : ∀ k, h.length ≤ k → h.getD k 0 * x.getD (i - k) 0 = 0 := fun k hk => by
    rw [List.getD_eq_default h _ hk, zero_mul]
  rw [sum_range_ite_le hh, linearConv_eq_sum_samples, ← sum_flip]
  refine sum_congr rfl fun k hk => ?_
  rw [Nat.sub_sub_self (Nat.lt_succ_iff.1 (mem_range.1 hk)), mul_comm]

/-- Zeros at the end of a stream add nothing. -/
theorem linearConv_append_zeros (h x : List ℝ) (k : ℕ) : linearConv h (x ++ List.replicate k 0) = linearConv h x := by
  funext i
  have hzeros : linearConv h (List.replicate k 0) (i - x.length) = 0 :=
    sum_eq_zero fun j _ => by simp
  rw [linearConv_append, hzeros, ite_self, add_zero]

/-! The samples of the convolution from one place on. -/

/-- `count` samples of the linear convolution, from sample `start` on. -/
noncomputable def convSlice (h x : List ℝ) (start count : ℕ) : List ℝ :=
  (List.range count).map fun i => linearConv h x (start + i)

theorem convSlice_zero (h x : List ℝ) (count : ℕ) :
    convSlice h x 0 count = (List.range count).map (linearConv h x) := by
  simp only [convSlice, Nat.zero_add]

theorem convSlice_getD {h x : List ℝ} {start count i : ℕ} (hi : i < count) :
    (convSlice h x start count).getD i 0 = linearConv h x (start + i) := by
  simp [convSlice, hi]

theorem convSlice_add (h x : List ℝ) (start m n : ℕ) :
    convSlice h x start (m + n) = convSlice h x start m ++ convSlice h x (start + m) n := by
  simp only [convSlice, List.range_add, List.map_append, List.map_map, Function.comp_def, Nat.add_assoc]

/-- The convolution at a place does not depend on later samples of the stream. -/
theorem convSlice_append {h x : List ℝ} {start count : ℕ} (hle : start + count ≤ x.length) (y : List ℝ) :
    convSlice h (x ++ y) start count = convSlice h x start count := by
  refine List.map_congr_left fun i hi => ?_
  have hic : i < count := List.mem_range.1 hi
  rw [linearConv_append, if_neg (by omega), add_zero]

/-! The OLA Convolver (R145). -/

theorem ideal_zero : ideal.zero = 0 := rfl

/-- The overlap buffer after the stream `x`: the `N - 1` samples of its convolution not yet emitted (R145). -/
noncomputable def unemittedTail (h x : List ℝ) : Ola ℝ := { ovl := convSlice h x x.length (h.length - 1) }

theorem olaConstruct_eq_unemittedTail (h : List ℝ) : olaConstruct ideal h.length = unemittedTail h [] := by
  simp [olaConstruct, unemittedTail, convSlice, linearConv, ideal_zero]

section
variable {h past x : List ℝ} {ord : ℕ}

/-- The value of `z`, `K >= m + N - 1`, at any index (R139). -/
theorem olaConv_getD (hh : 1 ≤ h.length) (hK : x.length + h.length - 1 ≤ 2 ^ ord) (i : ℕ) :
    (olaConv ideal ord (filterSpectrum ideal ord h) x).getD i 0 = linearConv h x i := by
  rw [blockConvolvesLinearly ord h x hh hK]
  rcases Nat.lt_or_ge i (2 ^ ord) with hi | hi
  · simp [hi]
  · rw [List.getD_eq_default _ _ (by simpa using hi), linearConv_eq_zero (by omega)]

/-- What the old overlap and the block's own convolution add up to (R140, R141). -/
theorem overlapAdd_eq_linearConv_append (i : ℕ) :
    (if i < h.length - 1 then linearConv h x i + (unemittedTail h past).ovl.getD i 0 else linearConv h x i) =
      linearConv h (past ++ x) (past.length + i) := by
  rw [linearConv_append, if_pos (Nat.le_add_right _ _), Nat.add_sub_cancel_left]
  split
  case isTrue hi => rw [unemittedTail, convSlice_getD hi, add_comm]
  case isFalse hi => rw [linearConv_eq_zero (x := past) (by omega), zero_add]

/-- One block: it emits the next samples of the convolution, and the tail moves on (R145). -/
theorem olaBlock_unemittedTail (hh : 1 ≤ h.length) (hK : x.length + h.length - 1 ≤ 2 ^ ord) :
    olaBlock ideal h.length ord (filterSpectrum ideal ord h) (unemittedTail h past) x =
      (convSlice h (past ++ x) past.length x.length, unemittedTail h (past ++ x)) := by
  have hz := olaConv_getD (ord := ord) hh hK
  refine Prod.ext (List.map_congr_left fun i _ => ?_) (congrArg Ola.mk (List.map_congr_left fun t _ => ?_))
  · rw [← overlapAdd_eq_linearConv_append, ← hz]
    rfl
  · rw [List.length_append, Nat.add_assoc, ← overlapAdd_eq_linearConv_append, ← hz, Nat.add_comm x.length t]
    exact if_congr Iff.rfl (add_comm _ _) rfl

end

theorem olaRun_unemittedTail {h : List ℝ} {ord b : ℕ} (hh : 1 ≤ h.length) (hK : b + h.length - 1 ≤ 2 ^ ord)
    {blocks : List (List ℝ)} (hb : ∀ x ∈ blocks, x.length ≤ b) (past : List ℝ) :
    olaRun ideal h.length ord (filterSpectrum ideal ord h) (unemittedTail h past) blocks =
      (convSlice h (past ++ blocks.flatten) past.length blocks.flatten.length,
       unemittedTail h (past ++ blocks.flatten)) := by
  induction blocks generalizing past with
  | nil => simp [olaRun, convSlice]
  | cons x blocks ih =>
    obtain ⟨hx, hblocks⟩ := List.forall_mem_cons.1 hb
    have hemitted : convSlice h (past ++ x) past.length x.length =
        convSlice h (past ++ x ++ blocks.flatten) past.length x.length :=
      (convSlice_append (List.length_append).ge _).symm
    rw [olaRun, olaBlock_unemittedTail hh (by omega), ih hblocks, hemitted, List.length_append, ← convSlice_add,
      List.flatten_cons, List.length_append, List.append_assoc]

/-- Settles O53: from the empty stream, by the law of a run. -/
theorem overlapHoldsUnemittedTail : Obligations.OverlapHoldsUnemittedTail := by
  intro ord b h blocks o hh hK hb hbegin
  have hinit : o = unemittedTail h [] := (hbegin.elim id fun ⟨_, hold⟩ => hold).trans (olaConstruct_eq_unemittedTail h)
  rw [hinit, olaRun_unemittedTail hh hK (fun x hx => (hb x hx).2), ← convSlice_zero]
  exact ⟨rfl, rfl⟩

/-! Cross-validation (R146). -/

/-- The Direct Convolver from its construction on gives the linear convolution (R110). -/
theorem directBlock_construct_output {h : List ℝ} (hh : 1 ≤ h.length) (x : List ℝ) :
    (directBlock ideal h h.length (directConstruct ideal h.length) x).1 =
      (List.range x.length).map (linearConv h x) := by
  refine List.ext_getElem (by simp) fun i hi _ => ?_
  have hix : i < x.length := by simpa using hi
  have hrun := directComputesConvolution h [x] _ i hh (by simpa using hix) (.inl rfl)
  rw [directRun_eq_directBlock, List.flatten_singleton, ← linearConv_eq_sum_taps, List.getD_eq_getElem _ _ hi] at hrun
  simpa using hrun

/-- Settles O54: each convolver's total is the first `L + N - 1` samples of the convolution of the stream. -/
theorem convolversAgree : Obligations.ConvolversAgree := by
  intro ord b h blocks hh hK hb
  obtain ⟨houtputs, hflush⟩ := overlapHoldsUnemittedTail ord b h blocks _ hh hK hb (.inl rfl)
  calc olaTotal ideal ord h blocks
      = convSlice h blocks.flatten 0 blocks.flatten.length ++
          convSlice h blocks.flatten (0 + blocks.flatten.length) (h.length - 1) := by
        rw [olaTotal, houtputs, hflush, convSlice_zero, Nat.zero_add]
        rfl
    _ = (List.range (blocks.flatten.length + (h.length - 1))).map (linearConv h blocks.flatten) := by
        rw [← convSlice_add, convSlice_zero]
    _ = directTotal ideal h blocks := by
        rw [directTotal, directBlock_construct_output hh, List.length_append, List.length_replicate,
          ideal_zero, linearConv_append_zeros]

end Sys2Proof.Machine
end

section
/-! R172: a run on the words supplied ends, because a step that does not fault uses up some of what it has to do. -/

namespace Sys2Proof.Machine

/-- What is left to do: the words supplied and not yet taken, and the commit of a build in progress. -/
def State.workLeft (s : State) : Nat := s.rpIn.length + s.cpIn.length + s.rebuilding.toNat

theorem FaultCode.code_ne_zero (f : FaultCode) : f.code ≠ 0#4 := by cases f <;> decide

theorem State.raiseFault_faulted (p : Port) (rop : BitVec 4) (f : FaultCode) (s : State) :
    (s.raiseFault p rop f).faulted := by
  rw [State.faulted, State.raiseFault_fault]
  exact f.code_ne_zero

theorem State.workLeft_choose (s : State) : s.choose.2.workLeft = s.workLeft := by
  simp [State.workLeft, State.rebuilding]

theorem State.workLeft_recv {p : Port} {k : Nat} {s : State} (hk : k ≤ (s.inStream p).length) :
    (s.recv p k).workLeft + k = s.workLeft := by
  have hdrop : ((s.inStream p).drop k).length + k = (s.inStream p).length := by
    rw [List.length_drop]
    exact Nat.sub_add_cancel hk
  simp only [State.workLeft, State.rebuilding, State.recv_pend]
  cases p with
  | rp =>
    simp only [State.inStream] at hdrop
    simp only [State.recv_rp_rpIn, State.recv_rp_cpIn]
    omega
  | cp =>
    simp only [State.inStream] at hdrop
    simp only [State.recv_cp_rpIn, State.recv_cp_cpIn]
    omega

/-- Streams that only move forward leave no more words, so more work can only be the commit of a build (R25). -/
theorem State.Advances.workLeft_le {s t : State} (h : s.Advances t) :
    t.workLeft + s.rebuilding.toNat ≤ s.workLeft + t.rebuilding.toNat := by
  obtain ⟨-, ⟨k, -, -, hrp, -, -⟩, ⟨j, -, -, hcp, -, -⟩⟩ := h
  simp only [State.workLeft, hrp, hcp, List.length_drop]
  omega

/-- A command adds less work than its header words were: a build adds one commit and has two header words (R79). -/
theorem workLeft_exec_lt {i : Instr} {s t : State} (hx : exec i s = .next t) :
    t.workLeft < s.workLeft + headerWords i := by
  have hle := (exec_advances hx).workLeft_le
  cases i with
  | query | select | reset | flush | proc =>
    have hpend : t.pend = s.pend := (exec_realTime rfl hx).2.control_frame.2
    simp only [State.rebuilding, hpend] at hle
    simp only [headerWords]
    omega
  | build | buildk =>
    have hcommit := t.rebuilding.toNat_le
    simp only [headerWords]
    omega

/-- A commit faults, or there is one commit less to do (R167). -/
theorem buildCommit_faulted_or_workLeft_lt {pd : Pending} {s : State} (hpend : s.pend = some pd) :
    (buildCommit pd s).faulted ∨ (buildCommit pd s).workLeft < s.workLeft := by
  have hle := (buildCommit_advances pd s).workLeft_le
  obtain ⟨-, hcommit⟩ | ⟨-, hcommit⟩ := buildCommit_cases pd s
  · rw [hcommit]
    exact .inl (State.raiseFault_faulted _ _ _ s)
  · have hdone : (buildCommit pd s).rebuilding = false := by rw [hcommit]; rfl
    have hopen : s.rebuilding = true := (rebuilding_eq_true_iff s).2 ⟨pd, hpend⟩
    rw [hdone, hopen] at hle
    exact .inr hle

theorem step_faulted_or_workLeft_lt {s t : State} (h : step s = .next t) : t.faulted ∨ t.workLeft < s.workLeft := by
  obtain ⟨-, u, hu, hcase⟩ := step_cases h
  have hchoice : u.workLeft = s.workLeft := by
    rcases hu with rfl | rfl
    · rfl
    · exact s.workLeft_choose
  rw [← hchoice]
  obtain ⟨pd, hpend, rfl⟩ | ⟨p, why, rop, k, -, -, rfl⟩ | ⟨p, i, k, -, hfetch, hx⟩ := hcase
  · exact buildCommit_faulted_or_workLeft_lt hpend
  · exact .inl (State.raiseFault_faulted p rop _ _)
  · obtain ⟨-, hk, -⟩ := decode_command hfetch
    obtain ⟨-, -, rfl, -⟩ := encodeInvertsDecode p _ i k hfetch
    exact .inr ((workLeft_exec_lt hx).trans_eq (State.workLeft_recv hk))

/-- The three ends of R172. -/
def State.ended (s : State) : Prop := s.faulted ∨ s.over ∨ s.stuck

theorem step_of_ended {s : State} (h : s.ended) : ∃ r, step s = .fault r := by
  rcases h with h | h | h
  · exact ⟨_, step_of_faulted h⟩
  · exact ⟨_, step_of_over h⟩
  · exact ⟨_, step_of_stuck h⟩

theorem State.ended_or_step (s : State) : s.ended ∨ ∃ t, step s = .next t := by
  rcases s.end_or_canStep with h | h | h | ⟨hfault, p, hp⟩
  · exact .inl (.inl h)
  · exact .inl (.inr (.inl h))
  · exact .inl (.inr (.inr h))
  · exact .inr (step_of_canStep hfault hp)

theorem run_succ {s t : State} (h : step s = .next t) (k : Nat) :
    Host.Core.run Sys2Proof.core (k + 1) s = Host.Core.run Sys2Proof.core k t := by
  have hcore : Sys2Proof.core.step s = .next t := h
  simp only [Host.Core.run, hcore]

/-- By induction on the work left: a step either faults or leaves less of it. -/
theorem exists_run_ended (s : State) : ∃ k t, Host.Core.run Sys2Proof.core k s = .next t ∧ t.ended := by
  induction hw : s.workLeft using Nat.strong_induction_on generalizing s with
  | _ w ih =>
    rcases s.ended_or_step with hend | ⟨u, hu⟩
    · exact ⟨0, s, rfl, hend⟩
    · rcases step_faulted_or_workLeft_lt hu with hfaulted | hless
      · exact ⟨1, u, run_succ hu 0, .inl hfaulted⟩
      · obtain ⟨k, t, hrun, ht⟩ := ih u.workLeft (hw ▸ hless) u rfl
        exact ⟨k + 1, t, (run_succ hu k).trans hrun, ht⟩

/-- Settles O12: the run ends by induction on the work left, and an ended state has no step. -/
theorem everyRunEnds : Obligations.EveryRunEnds := by
  intro s
  obtain ⟨k, t, hrun, hend⟩ := exists_run_ended s
  obtain ⟨r, hr⟩ := step_of_ended hend
  exact ⟨k, t, r, hrun, hend, hr⟩

end Sys2Proof.Machine
end

section
/-! R160, R167, R202, R203: the stops at the gates, where a command has no step. -/

namespace Sys2Proof.Machine

theorem realTimeCommand_incomplete {k : Nat} {s : State} (body : State → State) (hfault : s.fault = 0#4)
    (hk : s.rpIn.length < k) : realTimeCommand k s body = .fault .incompleteCommand := by
  rw [realTimeCommand, if_pos hfault, if_neg (by rwa [hasAtLeast_iff, Nat.not_le])]

theorem controlCommand_incomplete {k : Nat} {s : State} (body : State → State) (hfault : s.fault = 0#4)
    (hpend : s.pend = none) (hk : s.cpIn.length < k) : controlCommand k s body = .fault .incompleteCommand := by
  have hidle : ¬ s.rebuilding = true := by rw [(rebuilding_eq_false_iff s).2 hpend]; decide
  rw [controlCommand, if_pos hfault, if_neg hidle, if_neg (by rwa [hasAtLeast_iff, Nat.not_le])]

theorem controlCommand_busy (k : Nat) {s : State} {pd : Pending} (body : State → State) (hfault : s.fault = 0#4)
    (hpend : s.pend = some pd) : controlCommand k s body = .fault .controlPortBusy := by
  rw [controlCommand, if_pos hfault, if_pos ((rebuilding_eq_true_iff s).2 ⟨pd, hpend⟩)]

theorem exec_of_faulted (i : Instr) {s : State} (h : s.faulted) : exec i s = .fault .halted := by
  cases i with
  | query | select | reset | flush | proc =>
    rw [exec_eq_realTimeCommand rfl]
    exact realTimeCommand_halted _ s _ h
  | build n b => exact controlCommand_halted n s _ h
  | buildk n b ord => exact controlCommand_halted n s _ h

/-- Settles O9: the step and both gates test `FAULT` first. -/
theorem haltedMachineHasNoStep : Obligations.HaltedMachineHasNoStep :=
  fun _ h => ⟨step_of_faulted h, fun i => exec_of_faulted i h⟩

/-- Settles O24: the gate of each port asks for the whole payload. -/
theorem commandWaitsForItsPayload : Obligations.CommandWaitsForItsPayload := fun _ hfault =>
  ⟨fun _ hlen => realTimeCommand_incomplete _ hfault hlen,
    fun _ _ hpend hlen => controlCommand_incomplete _ hfault hpend hlen,
    fun _ _ _ hpend hlen => controlCommand_incomplete _ hfault hpend hlen⟩

/-- Settles O30: the gate of the control port asks that no build be in progress. -/
theorem secondBuildWaits : Obligations.SecondBuildWaits := fun _ _ hfault hpend =>
  ⟨fun n _ => controlCommand_busy n _ hfault hpend, fun n _ _ => controlCommand_busy n _ hfault hpend⟩

end Sys2Proof.Machine
end

section
/-! R162, R163: `QUERY` and `SELECT`, and the example words of R162 to R169. -/

namespace Sys2Proof.Machine

/-- A real-time command without a payload needs no fault, and nothing else, to have its effect (R160). -/
theorem exec_of_no_payload {i : Instr} {s : State} (hfault : s.fault = 0#4) (hport : i.port = .rp)
    (hpayload : payloadWords s.nch i = 0) : exec i s = .next (realTimeBody i s) := by
  rw [exec_eq_realTimeCommand hport, hpayload]
  exact realTimeCommand_runs 0 s _ hfault (Nat.zero_le _)

/-- Settles O4: each example is the encoding of its command, which decodes to it. -/
theorem exampleWordsDecode : Obligations.ExampleWordsDecode :=
  ⟨decodeInvertsEncode .query [] rfl, decodeInvertsEncode (.select .timeDomain) [] rfl,
    decodeInvertsEncode (.reset true true 0) [] rfl, decodeInvertsEncode (.flush 0) [] rfl,
    decodeInvertsEncode (.proc 4) [] rfl, decodeInvertsEncode (.build 4 4) [] rfl,
    decodeInvertsEncode (.buildk 4 4 3) [] rfl⟩

/-- The response to `QUERY` has the three flags in word bits 16, 17 and 18 (R74, R162). -/
theorem query_responseWord (s : State) :
    responseWord (opcodeBits .query) statusOk (queryInfo s) 0#16 =
      BitVec.ofNat 32 (0x10000000 + (if s.cset.isSome then 2 ^ 16 else 0) +
        (if s.alg = .timeDomain then 2 ^ 17 else 0) + (if s.pend.isSome then 2 ^ 18 else 0)) := by
  unfold queryInfo State.irLoaded State.rebuilding
  cases s.cset.isSome <;> cases s.alg <;> cases s.pend.isSome <;> rfl

/-- Settles O14: the answer of `QUERY` is its flags, and sending it is all that it does. -/
theorem queryAnswersFlags : Obligations.QueryAnswersFlags := by
  refine ⟨fun rest => decodeInvertsEncode .query rest rfl, fun s hfault => ?_⟩
  rw [← query_responseWord, exec_of_no_payload hfault rfl rfl]
  rfl

/-- Settles O15: `SELECT` passes no test but the gate's. -/
theorem selectWritesAlg : Obligations.SelectWritesAlg := by
  refine ⟨fun rest => ⟨decodeInvertsEncode (.select .frequencyDomain) rest rfl,
    decodeInvertsEncode (.select .timeDomain) rest rfl⟩, fun a s hfault => ?_⟩
  rw [exec_of_no_payload hfault rfl rfl]
  rfl

end Sys2Proof.Machine
end

section
/-! R167, R192, R193, R198, R202: the first fault of a build's operands, and a build without one. -/

namespace Sys2Proof.Machine

theorem badParam_build_iff (b o : Nat) : badParam .build b o ↔ b = 0 := by simp [badParam]

theorem badParam_buildk_iff (b o : Nat) : badParam .buildk b o ↔ b = 0 ∨ orderMax < o := by simp [badParam]

/-- The derived order is too small exactly where the largest one is (R131, R133). -/
theorem tooSmall_derivedOrder_iff (n b : Nat) : tooSmall (derivedOrder n b) n b ↔ 2 ^ orderMax < needOf n b := by
  constructor
  · intro hsmall
    exact Nat.lt_of_not_le fun hneed => not_tooSmall_derivedOrder hneed hsmall
  · intro hneed
    exact (Nat.pow_le_pow_right (by decide) (derivedOrder_le_orderMax n b)).trans_lt hneed

/-- The code of the first fault of a build's operands (R202). -/
theorem buildFault_code (op : BuildOp) (n b o : Nat) :
    (buildFault op n b o).map FaultCode.code =
      if n = 0 then some 8#4 else if badParam op b o then some 13#4
      else if tooSmall (orderFor op n b o) n b then some 9#4 else none := by
  unfold buildFault
  split_ifs <;> rfl

theorem buildFault_build_code (n b o : Nat) :
    (buildFault .build n b o).map FaultCode.code =
      if n = 0 then some 8#4 else if b = 0 then some 13#4 else if 16384 < b + n - 1 then some 9#4 else none := by
  simp only [buildFault_code, badParam_build_iff, orderFor, tooSmall_derivedOrder_iff]
  rfl

theorem buildFault_buildk_code (n b ord : Nat) :
    (buildFault .buildk n b ord).map FaultCode.code =
      if n = 0 then some 8#4 else if b = 0 ∨ 14 < ord then some 13#4
      else if 2 ^ ord < b + n - 1 then some 9#4 else none := by
  simp only [buildFault_code, badParam_buildk_iff, orderFor]
  rfl

/-- A fault of the operands is the whole effect of the begin step (R167, R196). -/
theorem controlCommand_buildBegin_fault {op : BuildOp} {n b o : Nat} {s : State} {f : BitVec 4}
    (hfault : s.fault = 0#4) (hpend : s.pend = none) (hlen : n ≤ s.cpIn.length)
    (hf : (buildFault op n b o).map FaultCode.code = some f) :
    controlCommand n s (buildBegin op n b o) =
      .next { s with fault := f, cpOut := s.cpOut ++ [responseWord (opcodeBits op.opcode) f 0#8 0#16] } := by
  obtain ⟨code, hcode, rfl⟩ := Option.map_eq_some_iff.1 hf
  exact (controlCommand_runs n s _ hfault hpend hlen).trans (congrArg _ (buildBegin_fault op n b o s code hcode))

/-- Settles O29: the first fault of the operands is the one of the stated chain, for each of the two builds. -/
theorem buildFaultsInOrder : Obligations.BuildFaultsInOrder := by
  intro n b ord s f hfault hpend hlen
  rw [← buildFault_build_code n b 0, ← buildFault_buildk_code]
  exact ⟨controlCommand_buildBegin_fault hfault hpend hlen, controlCommand_buildBegin_fault hfault hpend hlen⟩

/-- Settles O28: no test of the chain holds of the operands, and `BUILDK` puts its own order into `PEND`. -/
theorem buildkBegins : Obligations.BuildkBegins := by
  intro n b ord s hfault hpend hn hb hord hsize hlen
  have hnone : buildFault .buildk n b ord = none := by
    rw [← Option.map_eq_none_iff (f := FaultCode.code), buildFault_buildk_code, if_neg (by omega), if_neg (by omega),
      if_neg (Nat.not_lt.2 hsize)]
  exact (controlCommand_runs n s _ hfault hpend hlen).trans (congrArg _ (buildBegin_begins .buildk n b ord s hnone))

end Sys2Proof.Machine
end

section
/-! R161, R195, R199 to R201: the skips of the commands that ask for the set, and the length test of `PROC`. -/

namespace Sys2Proof.Machine

/-- The lock or "IR loaded" stops every command that asks for the set, with the code `k` (R161). -/
def State.SkipsWith (s : State) (k : SkipCode) : Prop :=
  ∀ (op : Opcode) (n : Nat) (body : ConvSet → State), s.trylock op n body = s.skip op n k

theorem State.skipsWith_busy {s : State} {pd : Pending} (hpend : s.pend = some pd) : s.SkipsWith .skipBusy :=
  fun op n body => trylock_busy op n s body pd hpend

theorem State.skipsWith_noIr {s : State} (hpend : s.pend = none) (hset : s.cset = none) : s.SkipsWith .skipNoIr :=
  fun op n body => trylock_noIr op n s body hpend hset

section
variable {s : State} {k : SkipCode}

theorem State.SkipsWith.exec_reset (h : s.SkipsWith k) (hfault : s.fault = 0#4) (direct ola : Bool) {c : Nat}
    (hc : c < s.nch) : exec (.reset direct ola c) s = .next (s.skip .reset 0 k) :=
  (exec_of_no_payload hfault rfl rfl).trans
    (congrArg _ ((if_neg (Nat.not_le_of_lt hc)).trans (h .reset 0 _)))

theorem State.SkipsWith.exec_flush (h : s.SkipsWith k) (hfault : s.fault = 0#4) {c : Nat} (hc : c < s.nch) :
    exec (.flush c) s = .next (s.skip .flush 0 k) :=
  (exec_of_no_payload hfault rfl rfl).trans
    (congrArg _ ((if_neg (Nat.not_le_of_lt hc)).trans (h .flush 0 _)))

/-- The lock comes before the length test, so the length may be any (R195, R202). -/
theorem State.SkipsWith.exec_proc (h : s.SkipsWith k) (hfault : s.fault = 0#4) {m : Nat}
    (hlen : s.nch * m ≤ s.rpIn.length) : exec (.proc m) s = .next (s.skip .proc (s.nch * m) k) :=
  (realTimeCommand_runs _ s _ hfault hlen).trans (congrArg _ (h .proc (s.nch * m) _))

end

/-- Settles O22: inside a window the lock is taken, whatever the set is. -/
theorem windowSkipsRealTimeCommands : Obligations.WindowSkipsRealTimeCommands := by
  intro s pd hfault hpend
  have hskips := State.skipsWith_busy hpend
  exact ⟨fun direct ola _ hc => hskips.exec_reset hfault direct ola hc, fun _ hc => hskips.exec_flush hfault hc,
    fun _ hlen => hskips.exec_proc hfault hlen⟩

/-- Settles O23: the lock is free, and there is no set to work on. -/
theorem noIrSkipsRealTimeCommands : Obligations.NoIrSkipsRealTimeCommands := by
  intro s hfault hpend hset
  have hskips := State.skipsWith_noIr hpend hset
  exact ⟨fun direct ola _ hc => hskips.exec_reset hfault direct ola hc, fun _ hc => hskips.exec_flush hfault hc,
    fun _ hlen => hskips.exec_proc hfault hlen⟩

/-- Settles O20: with the set at hand the length is tested before the block; a skip comes before the test. -/
theorem procBadLengthFaults : Obligations.ProcBadLengthFaults := by
  constructor
  · intro m s cs hfault hpend hset hbad hlen
    obtain ⟨t, ht⟩ := exec_runs (i := .proc m) hfault (fun h => by cases h) hlen
    rw [ht, exec_proc_ready ht hpend hset, if_pos hbad]
    rfl
  · intro m s hfault hskipped hlen
    have hskips : ∃ k, s.SkipsWith k := by
      cases hpend : s.pend with
      | some pd => exact ⟨_, State.skipsWith_busy hpend⟩
      | none => exact ⟨_, State.skipsWith_noIr hpend (hskipped.resolve_left fun hne => hne hpend)⟩
    obtain ⟨k, hk⟩ := hskips
    exact ⟨_, hk.exec_proc hfault hlen, hfault⟩

end Sys2Proof.Machine
end

section
/-! R190, R196, R203: a step that faults takes header words, enters the fault, and does nothing else. -/

namespace Sys2Proof.Machine

/-! The header words that the decoder takes (R79, R83). -/

theorem headerWords_le_two (i : Instr) : headerWords i ≤ 2 := by
  cases i <;> simp [headerWords]

theorem decode_command_taken_le_two {p : Port} {ws : List Word} {i : Instr} {k : Nat}
    (h : decode p ws = .command i k) : k ≤ 2 := by
  obtain ⟨-, -, rfl, -⟩ := encodeInvertsDecode p ws i k h
  exact headerWords_le_two i

theorem decode_illegal_taken_le_two {p : Port} {ws : List Word} {why : Illegal} {rop : BitVec 4} {k : Nat}
    (h : decode p ws = .illegal why rop k) : k ≤ 2 := by
  cases ws with
  | nil => cases h
  | cons w rest =>
    obtain ⟨-, ⟨-, -, rfl⟩ | ⟨-, -, -, rfl⟩⟩ := decode_illegal_cases h
    · decide
    · decide

/-! Of all that a command or a commit can do, only a fault entry writes `FAULT` (R23, R196). -/

theorem RealTimeEffect.eq_raiseFault {s t : State} {i : Instr} (he : RealTimeEffect s i t) (hfault : s.fault = 0#4)
    (ht : t.faulted) : ∃ rop f, t = s.raiseFault .rp rop f := by
  cases he with
  | fault i f => exact ⟨_, f, rfl⟩
  | query | select | reset | flush | proc | skip => exact absurd hfault ht

theorem BeginEffect.eq_raiseFault {s t : State} (he : BeginEffect s t) (hfault : s.fault = 0#4) (ht : t.faulted) :
    ∃ rop f, t = s.raiseFault .cp rop f := by
  cases he with
  | fault rop f => exact ⟨rop, f, rfl⟩
  | begins => exact absurd hfault ht

theorem exec_eq_raiseFault {i : Instr} {s t : State} (hx : exec i s = .next t) (hfault : s.fault = 0#4)
    (ht : t.faulted) : ∃ rop f, t = s.raiseFault i.port rop f := by
  cases hport : i.port with
  | rp => exact (exec_realTime hport hx).2.eq_raiseFault hfault ht
  | cp => exact (exec_control hport hx).eq_raiseFault hfault ht

theorem buildCommit_eq_raiseFault {pd : Pending} {s : State} (hfault : s.fault = 0#4) (ht : (buildCommit pd s).faulted) :
    ∃ rop f, buildCommit pd s = s.raiseFault .cp rop f := by
  obtain ⟨-, hcommit⟩ | ⟨-, hcommit⟩ := buildCommit_cases pd s
  · exact ⟨_, _, hcommit⟩
  · rw [hcommit] at ht
    exact absurd hfault ht

/-- A step that faults is a fault entry by one port, after at most two words taken from that port (R196). -/
theorem step_eq_raiseFault {s t : State} (h : step s = .next t) (ht : t.faulted) :
    ∃ (u : State) (p : Port) (k : Nat) (rop : BitVec 4) (f : FaultCode),
      (u = s ∨ u = s.choose.2) ∧ k ≤ 2 ∧ t = (u.recv p k).raiseFault p rop f := by
  obtain ⟨hfault, u, hu, hcase⟩ := step_cases h
  have hufault : u.fault = 0#4 := by rcases hu with rfl | rfl <;> simpa using hfault
  rcases hcase with ⟨pd, -, rfl⟩ | ⟨p, why, rop, k, -, hfetch, rfl⟩ | ⟨p, i, k, -, hfetch, hx⟩
  · obtain ⟨rop, f, hcommit⟩ := buildCommit_eq_raiseFault hufault ht
    exact ⟨u, .cp, 0, rop, f, hu, Nat.zero_le 2, hcommit⟩
  · exact ⟨u, p, k, rop, .fIllegalCmd, hu, decode_illegal_taken_le_two hfetch, rfl⟩
  · obtain ⟨rfl, -⟩ := decode_command hfetch
    obtain ⟨rop, f, rfl⟩ := exec_eq_raiseFault hx (by simpa using hufault) ht
    exact ⟨u, _, k, rop, f, hu, decode_command_taken_le_two hfetch, rfl⟩

/-- Settles O10: the frame of a fault entry after the words taken; the choice of the sequencer touches no named field. -/
theorem faultEntryChangesNothingElse : Obligations.FaultEntryChangesNothingElse := by
  intro s t hstep ht
  obtain ⟨u, p, k, rop, f, hu, hk, rfl⟩ := step_eq_raiseFault hstep ht
  have hchoice : u.alg = s.alg ∧ u.cset = s.cset ∧ u.pend = s.pend ∧ u.nch = s.nch := by
    rcases hu with rfl | rfl <;> simp
  obtain ⟨halg, hcset, hpend, hnch⟩ := hchoice
  refine ⟨by simp [halg], by simp [hcset], by simp [hpend], by simp [hnch], step_of_faulted ht, f, rop, k,
    State.raiseFault_fault .., hk, ?_⟩
  cases p with
  | rp =>
    left
    rcases hu with rfl | rfl <;> simp [State.sameCp]
  | cp =>
    right
    rcases hu with rfl | rfl <;> simp [State.sameRp]

end Sys2Proof.Machine
end
